-- ==== Sys2Proof/Word.lean ====
section
/-! DEFINITION. The words of the block and their widths (00_scope.md R11, R14; decisions D5, D6, D8, D9). -/

namespace Sys2Proof

/-- One entry of the Transfer Buffer, and DUTY: VAL_BITS = 16 (R11, D5). -/
abbrev Val := BitVec 16

/-- An LED count or a counter of units or cycles: CNT_BITS = 16 (R11, D6). -/
abbrev Count := BitVec 16

/-- The index of an element of the LED space: ADDR_BITS = 12 (R11, D9). -/
abbrev LedIndex := BitVec 12

/-- One colour channel (R16). -/
abbrev Byte := BitVec 8

/-- One LED Color as one number, red ‖ green ‖ blue (R16). -/
abbrev Colour := BitVec 24

/-- A command word (R81). -/
abbrev CmdWord := BitVec 32

/-- Channels per LED times bits per channel, the entries of one unit: UNIT = CH × CB = 24 (R11). -/
abbrev unitSize : Nat := 24

/-- LEDMEM_SIZE = 2^ADDR_BITS, the elements of the LED space (R11, D9). -/
abbrev ledmemSize : Nat := 4096

end Sys2Proof
end

