-- ==== Sys2Proof/Syntax.lean ====
section
/-! DEFINITION. The operations of the block: one constructor per row of the opcode table (30_encoding.md R80 to R93),
what a word can be, and why a word can be rejected. -/

namespace Sys2Proof

/-- The half selector h: the low half is 0, the high half is 1 (R87). -/
inductive Half where
  | low
  | high
  deriving DecidableEq, Repr, Inhabited

/-- The operations. READY, SEND, CLEAR, INIT are command words (R83); EV_HALF and EV_WRAP are selected by the event
vector (R85); the INTERNAL operations have no encoding (R91); WAIT and LEDW are pseudo-instructions of the HOST (R93). -/
inductive Instr where
  /-- READY (R130). -/
  | ready
  /-- SEND base, count (R122 to R124). -/
  | send (base : LedIndex) (count : Count)
  /-- CLEAR base, count (R126 to R128). -/
  | clear (base : LedIndex) (count : Count)
  /-- INIT (R120). -/
  | init
  /-- EV_HALF (R141). -/
  | evHalf
  /-- EV_WRAP (R142). -/
  | evWrap
  /-- ENCODE_UNIT(h, j) (R100 to R103). -/
  | encodeUnit (h : Half) (j : Nat)
  /-- ENCODE_HALF(h) (R104). -/
  | encodeHalf (h : Half)
  /-- ENG_START (R161). -/
  | engStart
  /-- ENG_STOP (R162). -/
  | engStop
  /-- ENG_XFER (R163). -/
  | engXfer
  /-- GEN_TICK (R184). -/
  | genTick
  /-- WAIT (R131). -/
  | wait
  /-- LEDW a, r, g, b (R132). -/
  | ledw (a : LedIndex) (r g b : Byte)
  deriving DecidableEq, Repr

/-- The format of an operation's row in the opcode table (R80, R91, R93). -/
inductive Format where
  | cmd
  | evt
  | internal
  | pseudo
  deriving DecidableEq, Repr

/-- The format of each operation. -/
def Instr.format : Instr → Format
  | .ready | .send _ _ | .clear _ _ | .init => .cmd
  | .evHalf | .evWrap => .evt
  | .encodeUnit _ _ | .encodeHalf _ | .engStart | .engStop | .engXfer | .genTick => .internal
  | .wait | .ledw _ _ _ _ => .pseudo

/-- The bits that select an operation: a command word (R81) or the event vector WRAP_PEND ‖ HALF_PEND (R85). -/
inductive Encoded where
  | cmd (w : CmdWord)
  | evt (v : BitVec 2)
  deriving DecidableEq, Repr

/-- Why the decoder rejects bits. -/
inductive Reject where
  /-- OP is 0x4 to 0xF (R84). -/
  | reservedOp (op : BitVec 4)
  /-- The event vector is 00: no operation (R85). -/
  | noEvent
  /-- The event vector is 11: not reachable without Overrun (R85, U19). -/
  | bothEvents
  deriving DecidableEq, Repr

end Sys2Proof
end

