-- ==== Sys2Proof/Config.lean ====
section
/-! DEFINITION. The configuration record of 00_scope.md R11, the constants derived from it (R12), and the model's one
free value, the schedule (R5, R39). -/

namespace Sys2Proof

/-- The agents that take steps (R4). -/
inductive Agent where
  | host
  | handler
  | engine
  | generator
  deriving DecidableEq, Repr, Inhabited

/-- The level of description a run is taken at (R4 d, R185): whole bit periods, where ENG_XFER is a step of the ENGINE,
or clock ticks, where it happens inside GEN_TICK. -/
inductive Level where
  | period
  | tick
  deriving DecidableEq, Repr

/-- The parameters of R11. The structural constants CH, CB, UNIT and the widths are fixed in Word. -/
structure Config where
  /-- N, the entries of the Transfer Buffer. -/
  n : Nat
  /-- W0, the logical-0 pulse width. -/
  w0 : Val
  /-- W1, the logical-1 pulse width. -/
  w1 : Val
  /-- PERIOD, ticks in a bit period. -/
  period : Nat
  /-- D, the Dead-Time constant, in units. -/
  d : Nat
  /-- CLEAR_LIMIT, whole buffer cycles of a clear. -/
  clearLimit : Nat
  /-- MAX_LEDS, the largest LED count a command may carry. -/
  maxLeds : Nat
  /-- NONBLOCKING: a SEND or CLEAR presented while not idle raises Busy. -/
  nonblocking : Bool
  /-- EVENT_TIMEOUT: none is the unbounded wait. Only whether it is finite plays a part (R203). -/
  eventTimeout : Option Nat
  /-- The level the run is described at (R185). -/
  level : Level
  deriving DecidableEq, Repr

namespace Config

/-- H, the entries of each half (R12). -/
def half (c : Config) : Nat := c.n / 2

/-- K, the LED slots of each half: as many LEDs as fit (R12). -/
def k (c : Config) : Nat := c.half / unitSize

/-- SLACK, the entries of each half that belong to no LED slot (R12). -/
def slack (c : Config) : Nat := c.half - unitSize * c.k

/-- DESIGN CHOICE (log 1): the configuration of State.reset, the toy values of 95_test_vectors.md (N48, D = 2,
CLEAR_LIMIT = 1, MAX_LEDS = 1000, W0 = 3, W1 = 6, PERIOD = 10) with the defaults of R11. -/
def toy : Config where
  n := 48
  w0 := 3
  w1 := 6
  period := 10
  d := 2
  clearLimit := 1
  maxLeds := 1000
  nonblocking := false
  eventTimeout := none
  level := .period

/-- The free schedule (log 2): the turns taken in the k-th round that no list has decided, any number of turns of any agents,
before the round's turn of the agent that makes transfers. It has no body, so nothing can be proved of its values: "Any
enabled step may be taken next" (R5). -/
opaque freeTurns : Nat → List Agent

end Config

end Sys2Proof
end

