-- ==== Sys2Proof/WellFormed.lean ====
section
/-! DEFINITION. What a legal configuration is (00_scope.md R11, D4, D6, D17) and what a legal instruction is under one. -/

namespace Sys2Proof

/-- The constraints R11 lays on the configuration, with N even and at least 48 (D4), PERIOD ≥ 2, and every counter inside
CNT_BITS (D6). W1 < 2^VAL_BITS holds by the type. A configuration that breaks one is REFUSED (R207). -/
def Config.wf (c : Config) : Bool :=
  decide (c.n % 2 = 0) && decide (48 ≤ c.n) && decide (0 < c.w0.toNat) && decide (c.w0.toNat < c.w1.toNat) &&
  decide (c.w1.toNat ≤ c.period) && decide (2 ≤ c.period) && decide (1 ≤ c.clearLimit) &&
  decide (c.clearLimit < 2 ^ 16) && decide (c.maxLeds + c.d < 2 ^ 16)

/-- The one operand the types leave too wide: ENCODE_UNIT's LED slot is 0 to K − 1 (R100). -/
def Instr.wf (c : Config) : Instr → Bool
  | .encodeUnit _ j => decide (j < c.k)
  | .ready | .send _ _ | .clear _ _ | .init | .evHalf | .evWrap | .encodeHalf _ | .engStart | .engStop | .engXfer
  | .genTick | .wait | .ledw _ _ _ _ => true

end Sys2Proof
end

