-- ==== Sys2Proof/Decode.lean ====
section
/-! DEFINITION. The decoder of command words and of the event vector, total and rejecting by name (30_encoding.md R81 to
R85), and after it the encoder. -/

namespace Sys2Proof

/-- OP, bits 31:28 (R81). -/
def opField (w : CmdWord) : BitVec 4 := w.extractLsb' 28 4

/-- BASE, bits 27:16, used as it stands (R81, R82). -/
def baseField (w : CmdWord) : LedIndex := w.extractLsb' 16 12

/-- COUNT, bits 15:0, used as it stands (R81, R82). -/
def countField (w : CmdWord) : Count := w.extractLsb' 0 16

/-- The opcode map R83: READY 0, SEND 1, CLEAR 2, INIT 3; OP 0x4 to 0xF are reserved (R84). READY and INIT ignore BASE and
COUNT (R82). -/
def decodeCmd (w : CmdWord) : Except Reject Instr :=
  match (opField w).toNat with
  | 0 => .ok .ready
  | 1 => .ok (.send (baseField w) (countField w))
  | 2 => .ok (.clear (baseField w) (countField w))
  | 3 => .ok .init
  | _ => .error (.reservedOp (opField w))

/-- The event vector WRAP_PEND ‖ HALF_PEND (R85). -/
def decodeEvt (v : BitVec 2) : Except Reject Instr :=
  match v.toNat with
  | 0 => .error .noEvent
  | 1 => .ok .evHalf
  | 2 => .ok .evWrap
  | _ => .error .bothEvents

/-- The decoder over both formats that select an operation (R80). -/
def decode : Encoded → Except Reject Instr
  | .cmd w => decodeCmd w
  | .evt v => decodeEvt v

/-- A command word from its fields: OP × 2^28 + base × 2^16 + count (R92), that is OP in bits 31:28, BASE in 27:16 and COUNT
in 15:0 (R81). -/
def cmdWordOf (op : BitVec 4) (base : LedIndex) (count : Count) : CmdWord :=
  BitVec.ofNat 32 (op.toNat * 2 ^ 28 + base.toNat * 2 ^ 16 + count.toNat)

/-- The bits of an instruction that has some; base = count = 0 for INIT and READY by convention (R92). INTERNAL operations
and pseudo-instructions have none (R91, R93). -/
def encode : Instr → Option Encoded
  | .ready => some (.cmd (cmdWordOf 0 0 0))
  | .send base count => some (.cmd (cmdWordOf 1 base count))
  | .clear base count => some (.cmd (cmdWordOf 2 base count))
  | .init => some (.cmd (cmdWordOf 3 0 0))
  | .evHalf => some (.evt 1)
  | .evWrap => some (.evt 2)
  | .encodeUnit _ _ | .encodeHalf _ | .engStart | .engStop | .engXfer | .genTick => none
  | .wait | .ledw _ _ _ _ => none

/-- The instruction the decoder reads from bits numbered as the opcode table numbers them. Rows of up to a byte are event
vectors (two bits, the rest zero); longer rows are command words, which are always 32 bits (R80). -/
def decodeTableWord (nbits w : Nat) : Option Instr :=
  if nbits ≤ 8 then
    if w < 4 then (decode (.evt (BitVec.ofNat 2 w))).toOption else none
  else if w < 2 ^ 32 then (decode (.cmd (BitVec.ofNat 32 w))).toOption
  else none

end Sys2Proof
end

