-- ==== Sys2Proof/Machine/State.lean ====
section
/-! DEFINITION. The state of the machine (10_state.md R20 to R36), the reasons a step can stop, and the state after
power-on reset (R41). -/

namespace Sys2Proof.Machine

/-- STATE, the Transmission State, coded 0 to 3 in this order (R21, R86). -/
inductive TxState where
  | idle
  | sending
  | clearing
  | done
  deriving DecidableEq, Repr

/-- ENGINE, the Engine State, coded 0 and 1 (R22, R86). -/
inductive EngineState where
  | ready
  | busy
  deriving DecidableEq, Repr

/-- HPHASE, the phase of the HOST at the command port (R36). -/
inductive HPhase where
  | free
  | waitSend
  | waitClear
  deriving DecidableEq, Repr

/-- The three coded faults (R200). -/
inductive CodedFault where
  | invalidArgument
  | engineFault
  | busy
  deriving DecidableEq, Repr

/-- One line of the model's log of coded faults: the fault and the info `raise` was given (R17, R200). -/
structure FaultRecord where
  fault : CodedFault
  word : CmdWord
  deriving DecidableEq, Repr

/-- One line of a HOST command sequence (R92, R93): a command word, WAIT, or a store to the LED space. -/
inductive HostItem where
  | word (w : CmdWord)
  | wait
  | ledw (a : LedIndex) (r g b : Byte)
  deriving DecidableEq, Repr

/-- The LED space as bytes: element a is bytes 3a, 3a + 1, 3a + 2 = red, green, blue (R51, D9). Addresses rise strictly and
no entry holds what an unlisted address reads as. -/
abbrev Memory := List Host.Cell

/-- The state: S0 to S16 and X0 to X2 of R20, then the model's own fields. -/
structure State where
  /-- The configuration (R11, R39); no step writes it (R13). -/
  cfg : Config
  /-- S0 STATE (R21). -/
  tx : TxState
  /-- S1 ENGINE (R22). -/
  engine : EngineState
  /-- S2 P, the Progress Counter (R23). -/
  p : Count
  /-- S3 CLR_CNT, the Clear-Cycle Counter (R24). -/
  clrCnt : Count
  /-- S4 LED_BASE (R25). -/
  ledBase : LedIndex
  /-- S5 LED_COUNT (R25). -/
  ledCount : Count
  /-- S6 DUTY (R26). -/
  duty : Val
  /-- S7 RDIDX, the entry the engine reads next (R28). -/
  rdidx : Nat
  /-- S8 HALF_PEND (R29). -/
  halfPend : Bool
  /-- S9 WRAP_PEND (R29). -/
  wrapPend : Bool
  /-- S10 BUF, the Transfer Buffer (R30). -/
  buf : List Val
  /-- S11 ERR: bit 0 INVALID_ARG, bit 1 ENGINE_FAULT, bit 2 BUSY (R32). -/
  err : BitVec 3
  /-- S12 INITED (R33). -/
  inited : Bool
  /-- S13 GEN_RUN (R33). -/
  genRun : Bool
  /-- S14 TICK (R34). -/
  tick : Nat
  /-- S15 PIN (R34). -/
  pin : Bool
  /-- S16 ACTIVE (R34). -/
  active : Bool
  /-- X0 LEDMEM (R31). -/
  ledmem : Memory
  /-- X1 OUT, the pulse widths emitted since reset, oldest first (R35). -/
  out : List Val
  /-- X2 HPHASE (R36). -/
  hphase : HPhase
  /-- X2 HCMD, the presented command word (R36). -/
  hcmd : CmdWord
  /-- The READY answers given so far, oldest first (R7 c); RESULT is the last (R81, R130). -/
  answers : List Bool
  /-- The model's log of coded faults, oldest first (R17, R200). -/
  faultLog : List FaultRecord
  /-- The PIN level of every tick so far, oldest first (R7 a). -/
  wave : List Bool
  /-- The HOST's command sequence still to come (R39). -/
  script : List HostItem
  /-- The turns of the schedule already decided (R39); past them come the rounds of the free value Config.freeTurns. -/
  turns : List Agent
  /-- How many rounds of the free schedule have begun (log 2). -/
  turnCount : Nat
  deriving DecidableEq, Repr

/-- Why the machine stops with a fault. The coded faults are no stops: they are next states (R201). -/
inductive Fault where
  /-- Raised by ENG_XFER, also inside GEN_TICK: an event would be raised while one is pending (R166, R205). Safe: the real
  engine would go on with wrong output, and the model proves nothing of such a run. -/
  | overrun
  /-- Raised by CLEAR's presentation and by LEDW, the instruction given: a write into the borrowed range while
  STATE = sending (R206). Safe: the real block would go on. -/
  | borrowViolation (i : Instr)
  /-- Raised at a turn of a HOST that waits while no sequence of steps of the other agents can free the block (R208):
  the outcome STUCK of R6. Safe: the run ends where the hardware live-locks. -/
  | stuck
  /-- Raised at a turn of the HANDLER whose event vector is 11 (R85, U19). Safe: it needs an Overrun to arise. -/
  | bothEventsPending
  /-- Raised by ENCODE_UNIT: the LED element lies past the LED space (R52). Safe: the argument check rules it out. -/
  | ledAddress (a : Nat)
  /-- Raised by ENG_XFER: RDIDX names no entry of BUF (R28). Safe: RDIDX stays below N. -/
  | bufIndex (i : Nat)
  deriving DecidableEq, Repr

/-- Why the model gives no step (R6, R207). -/
inductive Refusal where
  /-- Raised by exec for an instruction that has no meaning yet; no arm of this model uses it. Safe. -/
  | notModelled (mnemonic : String)
  /-- Raised at the presentation of a word whose OP is 0x4 to 0xF (R84). Safe. -/
  | reservedOp (w : CmdWord)
  /-- Raised by SEND, CLEAR, READY and WAIT while INITED = 0 (R207). Safe. -/
  | notInitialised (mnemonic : String)
  /-- Raised by INIT while INITED = 1 (R120, R207). Safe. -/
  | alreadyInitialised
  /-- Raised by every operation under a configuration that breaks a constraint of R11 (R207). Safe. -/
  | badConfig
  /-- Raised by an operation asked for in a state where its guard is false, so that it is no step of the relation (R5,
  log 9). Safe. -/
  | notEnabled (mnemonic : String)
  /-- Raised by ENCODE_UNIT for an LED slot j that is not 0 to K − 1 (R100, log 9). Safe. -/
  | slotOutOfRange (j : Nat)
  deriving DecidableEq, Repr

/-- The state after power-on reset under a configuration (R41). The items R41 calls unspecified hold 0 (log 3). -/
def State.resetWith (c : Config) : State where
  cfg := c
  tx := .idle
  engine := .ready
  p := 0
  clrCnt := 0
  ledBase := 0
  ledCount := 0
  duty := 0
  rdidx := 0
  halfPend := false
  wrapPend := false
  buf := List.replicate c.n 0
  err := 0
  inited := false
  genRun := false
  tick := 0
  pin := false
  active := false
  ledmem := []
  out := []
  hphase := .free
  hcmd := 0
  answers := []
  faultLog := []
  wave := []
  script := []
  turns := []
  turnCount := 0

/-- The state after power-on reset (R41), under the toy configuration (log 1). -/
def State.reset : State := State.resetWith Config.toy

end Sys2Proof.Machine
end

