-- ==== Sys2Proof/Machine/Ops.lean ====
section
/-! DEFINITION. The named operations over memory and registers: reading and writing the LED space and the Transfer Buffer
(00_scope.md R16), the writes of single registers, and raising a coded fault (60_exceptions.md R201). -/

namespace Sys2Proof.Machine

/-- The result of one step. -/
abbrev Result := Host.Outcome State Fault Refusal

/-- Runs the second operation on the state the first one answers, inside one atomic step. -/
def andThen (o : Result) (f : State → Result) : Result :=
  match o with
  | .next s => f s
  | .fault r => .fault r
  | .refused r => .refused r

/-- The state an operation answers, if it answers one. -/
def nextState? (o : Result) : Option State :=
  match o with
  | .next s => some s
  | .fault _ => none
  | .refused _ => none

/-- The constraints of R11 are preconditions of every rule; a configuration that breaks one is REFUSED (R207). -/
def configOk (s : State) : Bool := s.cfg.wf

/-- An operation under its configuration precondition. -/
def guardConfig (s : State) (o : Result) : Result := if configOk s then o else .refused .badConfig

/-- The accept guard, STATE = idle and ENGINE = ready (R65). -/
def idleReady (s : State) : Bool := decide (s.tx = .idle) && decide (s.engine = .ready)

/-! ### The LED space (R31, R50, R51) -/

/-- What a byte of the LED space that nothing has listed reads as. DESIGN CHOICE, unsafe (log 4): R31 leaves it open. -/
def unlistedByte : Byte := 0

/-- One byte of the LED space. -/
def memRead : Memory → Nat → Byte
  | [], _ => unlistedByte
  | (x, b) :: m, a => if x = a then b else memRead m a

/-- Stores one byte, keeping the addresses rising and listing no byte an unlisted address reads as. -/
def memWrite : Memory → Nat → Byte → Memory
  | [], a, v => if v = unlistedByte then [] else [(a, v)]
  | (x, b) :: m, a, v =>
    if a < x then if v = unlistedByte then (x, b) :: m else (a, v) :: (x, b) :: m
    else if a = x then if v = unlistedByte then m else (a, v) :: m
    else (x, b) :: memWrite m a v

/-- MemRead(LED, a, 3): the element as red ‖ green ‖ blue, from bytes 3a, 3a + 1, 3a + 2 (R16, R51). -/
def ledRead (m : Memory) (a : Nat) : Colour := memRead m (3 * a) ++ memRead m (3 * a + 1) ++ memRead m (3 * a + 2)

/-- MemWrite(LED, a, 3, v) (R16, R51). -/
def ledWrite (m : Memory) (a : Nat) (v : Colour) : Memory :=
  memWrite (memWrite (memWrite m (3 * a) (v.extractLsb' 16 8)) (3 * a + 1) (v.extractLsb' 8 8)) (3 * a + 2)
    (v.extractLsb' 0 8)

/-- Zeroes `count` elements from `base` on (R126). -/
def zeroLeds (m : Memory) (base : Nat) : Nat → Memory
  | 0 => m
  | count + 1 => zeroLeds (ledWrite m base 0) (base + 1) count

/-! ### The Transfer Buffer (R30, R57) -/

/-- BUF[base + k] <- v for the k-th v of a list (R101). -/
def bufWrite (base : Nat) : List Val → List Val → List Val
  | [], buf => buf
  | v :: vs, buf => bufWrite (base + 1) vs (buf.set base v)

/-! ### Register writes -/

/-- STATE <- t (R15). -/
def setTx (t : TxState) (s : State) : State := { s with tx := t }

/-- HPHASE <- free: the command is over for the HOST (R121). -/
def freePort (s : State) : State := { s with hphase := .free }

/-- HCMD <- word ; HPHASE <- wait_send or wait_clear (R122, R126). -/
def holdWord (w : CmdWord) (ph : HPhase) (s : State) : State := { s with hcmd := w, hphase := ph }

/-- HALF_PEND <- 0, the acknowledgement of the half-consumed event (R141, R210). -/
def ackHalf (s : State) : State := { s with halfPend := false }

/-- WRAP_PEND <- 0, the acknowledgement of the wrap event (R142, R210). -/
def ackWrap (s : State) : State := { s with wrapPend := false }

/-- LED space contents (R16). -/
def setLedmem (m : Memory) (s : State) : State := { s with ledmem := m }

/-- RESULT <- b, one answer of READY (R130). -/
def answer (b : Bool) (s : State) : State := { s with answers := s.answers ++ [b] }

/-- emit(v): one pulse of width v (R181). -/
def emit (v : Val) (s : State) : State := { s with out := s.out ++ [v] }

/-- SEND's writes of the borrowed reference and P <- 0 (R124). -/
def storeReference (base : LedIndex) (count : Count) (s : State) : State :=
  { s with ledBase := base, ledCount := count, p := 0 }

/-- CLEAR's fill: W0 in every entry, slack included; CLR_CNT <- 0 (R128). -/
def fillBuffer (s : State) : State := { s with buf := List.replicate s.cfg.n s.cfg.w0, clrCnt := 0 }

/-- CLR_CNT <- CLR_CNT + 1 (R142). -/
def countCycle (s : State) : State := { s with clrCnt := s.clrCnt + 1 }

/-- ACTIVE <- b (R184). -/
def setActive (b : Bool) (s : State) : State := { s with active := b }

/-- WAIT stands in the HOST's command sequence again (R131). -/
def repeatWait (s : State) : State := { s with script := .wait :: s.script }

/-! ### Coded faults and events -/

/-- The position of a coded fault's ERR bit: its code less one (R200, D18). -/
def CodedFault.bit : CodedFault → Nat
  | .invalidArgument => 0
  | .engineFault => 1
  | .busy => 2

/-- The code of a coded fault (R200, D18). -/
def CodedFault.code (f : CodedFault) : Nat := f.bit + 1

/-- `raise X(info)` for a coded fault X: its sticky ERR bit is set, the others stay, and nothing else of the machine changes;
the info goes to the model's log (R17, R201). -/
def raiseCoded (f : CodedFault) (w : CmdWord) (s : State) : State :=
  { s with err := s.err ||| (1#3 <<< f.bit), faultLog := s.faultLog ++ [⟨f, w⟩] }

end Sys2Proof.Machine
end

