-- ==== Sys2Proof/Machine/Operands.lean ====
section
/-! DEFINITION. The operand forms: the buffer map (20_memory.md R57), the ranges of a command's array (60_exceptions.md R202,
R206), the symbol code and its inverse (30_encoding.md R88 to R90), the HOST's stores and the signals of the command port
(R81). -/

namespace Sys2Proof.Machine

/-! ### The buffer map -/

/-- The half selector as a number: low 0, high 1 (R87). -/
def halfIndex : Half → Nat
  | .low => 0
  | .high => 1

/-- The first entry of a half, h × H (R87). -/
def halfBase (c : Config) (h : Half) : Nat := halfIndex h * c.half

/-- The first entry of LED slot (h, j), h × H + 24 × j (R57, R100). -/
def slotBase (c : Config) (h : Half) (j : Nat) : Nat := halfBase c h + unitSize * j

/-- The entry of symbol (h, j, c, k): channel c, position k (R57). -/
def symbolIndex (c : Config) (h : Half) (j channel k : Nat) : Nat := slotBase c h j + 8 * channel + k

/-! ### The symbol code -/

/-- Sym(b) (R88). -/
def sym (c : Config) (b : Bool) : Val := if b then c.w1 else c.w0

/-- Bit(v): exact on W0 and W1, the midpoint threshold otherwise (R89, D32). -/
def bitOf (c : Config) (v : Val) : Bool :=
  if v = c.w1 then true else if v = c.w0 then false else decide (c.w0.toNat + c.w1.toNat ≤ 2 * v.toNat)

/-- The data unit of a colour: entry k is Sym of bit 23 − k of red ‖ green ‖ blue (R53, R90). -/
def dataUnit (c : Config) (v : Colour) : List Val := (List.range unitSize).map fun k => sym c (v.getLsbD (23 - k))

/-- A dead-time unit: 24 entries of W0 (R90, C1, C2). -/
def deadUnit (c : Config) : List Val := List.replicate unitSize c.w0

/-- The number whose binary digits, most significant first, are the bits of a list of entries. -/
def bitsValue (c : Config) : List Val → Nat
  | [] => 0
  | v :: vs => (bitOf c v).toNat * 2 ^ vs.length + bitsValue c vs

/-- Byte(e0 .. e7) (R89). -/
def byteOf (c : Config) (es : List Val) : Byte := BitVec.ofNat 8 (bitsValue c es)

/-- Colour(u0 .. u23) as red ‖ green ‖ blue (R89). -/
def colourOf (c : Config) (u : List Val) : Colour :=
  byteOf c (u.take 8) ++ byteOf c ((u.drop 8).take 8) ++ byteOf c ((u.drop 16).take 8)

/-! ### A command's array -/

/-- The argument check: count > MAX_LEDS or base + count > LEDMEM_SIZE (R202); the sum does not wrap (R52). -/
def badArgument (c : Config) (base : LedIndex) (count : Count) : Bool :=
  decide (c.maxLeds < count.toNat) || decide (ledmemSize < base.toNat + count.toNat)

/-- CLEAR's array overlaps the borrowed range of a running SEND (R126, R206). -/
def overlapsBorrowed (s : State) (base : LedIndex) (count : Count) : Bool :=
  decide (s.tx = .sending) && decide (0 < count.toNat) && decide (0 < s.ledCount.toNat) &&
  decide (base.toNat < s.ledBase.toNat + s.ledCount.toNat) && decide (s.ledBase.toNat < base.toNat + count.toNat)

/-- The element is in the borrowed range of a running SEND (R132, R206). -/
def inBorrowed (s : State) (a : LedIndex) : Bool :=
  decide (s.tx = .sending) && decide (s.ledBase.toNat ≤ a.toNat) &&
  decide (a.toNat < s.ledBase.toNat + s.ledCount.toNat)

/-- The element the encoder reads next, LED_BASE + P (R101). -/
def currentLed (s : State) : Nat := s.ledBase.toNat + s.p.toNat

/-- LED_COUNT + D, the units of the transmission, computed exactly (R14, R143). -/
def totalUnits (s : State) : Nat := s.ledCount.toNat + s.cfg.d

/-! ### The command port -/

/-- The command word of SEND base, count (R81, R92). -/
def sendWord (base : LedIndex) (count : Count) : CmdWord := cmdWordOf 1 base count

/-- The command word of CLEAR base, count (R81, R92). -/
def clearWord (base : LedIndex) (count : Count) : CmdWord := cmdWordOf 2 base count

/-- CMD_WORD while CMD_VALID (R81): the word held during a wait, else the word the HOST presents next. WAIT presents READY,
0x00000000 (R93, R131). -/
def State.cmdWord (s : State) : Option CmdWord :=
  match s.hphase, s.script with
  | .waitSend, _ => some s.hcmd
  | .waitClear, _ => some s.hcmd
  | .free, .word w :: _ => some w
  | .free, .wait :: _ => some (cmdWordOf 0 0 0)
  | .free, .ledw _ _ _ _ :: _ => none
  | .free, [] => none

/-- CMD_VALID: the HOST holds a word on the port (R81). -/
def State.cmdValid (s : State) : Bool := s.cmdWord.isSome

/-- RESULT: the last answer of READY, if one has been given (R81, R130). -/
def State.result (s : State) : Option Bool := s.answers.getLast?

end Sys2Proof.Machine
end

