-- ==== Sys2Proof/Machine/Flags.lean ====
section
/-! DEFINITION. The codes of the named values (30_encoding.md R86), the event vector (R85), and the computations of the event
flags (43_block_transfer_engine.md R164, R166) and of the pin (44_timing_generator.md R184). -/

namespace Sys2Proof.Machine

/-- The STATE code (R86). -/
def TxState.code : TxState → BitVec 2
  | .idle => 0
  | .sending => 1
  | .clearing => 2
  | .done => 3

/-- The ENGINE code (R86). -/
def EngineState.code : EngineState → BitVec 1
  | .ready => 0
  | .busy => 1

/-- The event vector WRAP_PEND ‖ HALF_PEND (R85). -/
def eventVector (s : State) : BitVec 2 := BitVec.ofBool s.wrapPend ++ BitVec.ofBool s.halfPend

/-- RDIDX after one transfer, (RDIDX + 1) mod N (R163). -/
def nextRdidx (s : State) : Nat := (s.rdidx + 1) % s.cfg.n

/-- The transfer reads the last entry of the low half: the half-consumed event (R164). -/
def raisesHalf (s : State) : Bool := decide (nextRdidx s = s.cfg.half)

/-- The transfer reads the last entry of the high half: the wrap event (R164). -/
def raisesWrap (s : State) : Bool := decide (nextRdidx s = 0)

/-- The transfer would raise an event while one is pending (R166). -/
def overruns (s : State) : Bool := (raisesHalf s || raisesWrap s) && (s.halfPend || s.wrapPend)

/-- ENG_XFER's guard, ENGINE = busy and GEN_RUN = 1 (R163). -/
def engineRuns (s : State) : Bool := decide (s.engine = .busy) && s.genRun

/-- The stalled engine, ENGINE = busy and GEN_RUN = 0 (R203). -/
def engineStalled (s : State) : Bool := decide (s.engine = .busy) && !s.genRun

/-- The pin level of this tick, ACTIVE = 1 and TICK < DUTY (R184). -/
def pinLevel (s : State) : Bool := s.active && decide (s.tick < s.duty.toNat)

/-- TICK after one tick, (TICK + 1) mod PERIOD (R184). -/
def nextTick (s : State) : Nat := (s.tick + 1) % s.cfg.period

end Sys2Proof.Machine
end

