-- ==== Sys2Proof/Machine/Engine.lean ====
section
/-! DEFINITION. The Block Transfer Engine: ENG_START, ENG_STOP, ENG_XFER (43_block_transfer_engine.md R160 to R167). -/

namespace Sys2Proof.Machine

/-- ENG_START() as a sub-step (R161). -/
def startEngine (s : State) : State := { s with rdidx := 0, halfPend := false, wrapPend := false, engine := .busy }

/-- ENG_STOP() as a sub-step: RDIDX, DUTY and BUF keep their values (R162). -/
def stopEngine (s : State) : State := { s with engine := .ready }

/-- The effect of one transfer of the entry v: DUTY, the pulse, RDIDX and the event flags (R163, R164). -/
def moveEntry (v : Val) (s : State) : State :=
  emit v { s with
    duty := v
    rdidx := nextRdidx s
    halfPend := s.halfPend || raisesHalf s
    wrapPend := s.wrapPend || raisesWrap s }

/-- One transfer once the guard holds: Overrun is tested before the transfer is made (R166, R211 d). -/
def transferEntry (s : State) : Result :=
  if overruns s then .fault .overrun
  else
    match s.buf[s.rdidx]? with
    | none => .fault (.bufIndex s.rdidx)
    | some v => .next (moveEntry v s)

/-- ENG_START (R161). -/
def execEngStart (s : State) : Result := guardConfig s (.next (startEngine s))

/-- ENG_STOP (R162). -/
def execEngStop (s : State) : Result := guardConfig s (.next (stopEngine s))

/-- ENG_XFER (R163): it takes no step while ENGINE = ready or GEN_RUN = 0 (R165, R167). -/
def execEngXfer (s : State) : Result :=
  guardConfig s (if engineRuns s then transferEntry s else .refused (.notEnabled "ENG_XFER"))

end Sys2Proof.Machine
end

