-- ==== Sys2Proof/Machine/Encoder.lean ====
section
/-! DEFINITION. The Bit Encoder: ENCODE_UNIT and ENCODE_HALF (40_bit_encoder.md R100 to R109). -/

namespace Sys2Proof.Machine

/-- One unit written to the entries from `base` on, and P <- P + 1 (R101, R102). -/
def writeUnit (base : Nat) (u : List Val) (s : State) : State := { s with buf := bufWrite base u s.buf, p := s.p + 1 }

/-- ENCODE_UNIT(h, j) as a sub-step: the data case (R101), the dead-time case (R102), the exhausted case (R103), tested in
this order (R100). An element past the LED space does not exist and faults (R52). -/
def encodeUnit (h : Half) (j : Nat) (s : State) : Result :=
  if s.p.toNat < s.ledCount.toNat then
    if currentLed s < ledmemSize then
      .next (writeUnit (slotBase s.cfg h j) (dataUnit s.cfg (ledRead s.ledmem (currentLed s))) s)
    else .fault (.ledAddress (currentLed s))
  else if s.p.toNat < totalUnits s then .next (writeUnit (slotBase s.cfg h j) (deadUnit s.cfg) s)
  else .next s

/-- ENCODE_UNIT for `count` slots from slot j on, ascending (R104). -/
def encodeSlots (h : Half) : Nat → Nat → State → Result
  | 0, _, s => .next s
  | count + 1, j, s => andThen (encodeUnit h j s) (encodeSlots h count (j + 1))

/-- ENCODE_HALF(h) as a sub-step: all K slots of the half from slot 0 (R104). -/
def encodeHalf (h : Half) (s : State) : Result := encodeSlots h s.cfg.k 0 s

/-- ENCODE_UNIT (R100): the slot is 0 to K − 1. -/
def execEncodeUnit (h : Half) (j : Nat) (s : State) : Result :=
  guardConfig s (if j < s.cfg.k then encodeUnit h j s else .refused (.slotOutOfRange j))

/-- ENCODE_HALF (R104). -/
def execEncodeHalf (h : Half) (s : State) : Result := guardConfig s (encodeHalf h s)

end Sys2Proof.Machine
end

