-- ==== Sys2Proof/Machine/Handler.lean ====
section
/-! DEFINITION. The event handler: EV_HALF and EV_WRAP (42_event_handler.md R140 to R146). Entry saves nothing and return
restores nothing (60_exceptions.md R212, R213). -/

namespace Sys2Proof.Machine

/-- The branch of a handler while sending: refill the half while a unit is left to encode, else sending → done (R141, R143). -/
def refillOrDone (h : Half) (s : State) : Result :=
  if s.tx = .sending then
    if s.p.toNat < totalUnits s then encodeHalf h s else .next (setTx .done s)
  else .next s

/-- done → idle with the engine stopped in the same step (R141, R145). -/
def finishDone (s : State) : State := if s.tx = .done then setTx .idle (stopEngine s) else s

/-- The clear cycle an EV_WRAP counts while clearing; at the limit, tested with ≥, the engine stops (R142, D17). The sum is
exact (R14). -/
def countClear (s : State) : State :=
  if s.tx = .clearing then
    if s.cfg.clearLimit ≤ s.clrCnt.toNat + 1 then setTx .idle (stopEngine (countCycle s)) else countCycle s
  else s

/-- EV_HALF (R141), guard HALF_PEND = 1. -/
def execEvHalf (s : State) : Result :=
  guardConfig s
    (if s.halfPend then andThen (refillOrDone .low (ackHalf s)) fun t => .next (finishDone t)
     else .refused (.notEnabled "EV_HALF"))

/-- EV_WRAP (R142), guard WRAP_PEND = 1. -/
def execEvWrap (s : State) : Result :=
  guardConfig s
    (if s.wrapPend then andThen (refillOrDone .high (ackWrap s)) fun t => .next (countClear (finishDone t))
     else .refused (.notEnabled "EV_WRAP"))

end Sys2Proof.Machine
end

