-- ==== Sys2Proof/Machine/Command.lean ====
section
/-! DEFINITION. The commands of the HOST and the pseudo-instructions (41_transfer_state_machine.md R120 to R133). -/

namespace Sys2Proof.Machine

/-! ### The wait at the port (R123, R127) -/

/-- A handler step has made the accept guard true. -/
def freesBlock (o : Result) : Bool :=
  match nextState? o with
  | some t => idleReady t
  | none => false

/-- Some order of the pending handler steps makes the accept guard true. -/
def handlersFree (s : State) : Bool :=
  freesBlock (execEvHalf s) || freesBlock (execEvWrap s) || freesBlock (andThen (execEvHalf s) execEvWrap) ||
  freesBlock (andThen (execEvWrap s) execEvHalf)

/-- The HOST waits and no sequence of steps of the other agents can free the block: the engine makes no transfer and the
pending handlers do not stop it (R208, log 10). -/
def hostStuck (s : State) : Bool := !idleReady s && !engineRuns s && !handlersFree s

/-- One turn of a waiting HOST. The accept guard gives the accept step (R124, R128). With a finite EVENT_TIMEOUT a stalled
engine gives EngineFault, which frees the port (R203). A wait nothing can end is STUCK (R208). Else the HOST spins, which
changes nothing (R121, log 10). -/
def waitAtPort (accept : State → Result) (s : State) : Result :=
  if idleReady s then accept s
  else if engineStalled s && s.cfg.eventTimeout.isSome then .next (freePort (raiseCoded .engineFault s.hcmd s))
  else if hostStuck s then .fault .stuck
  else .next s

/-! ### SEND -/

/-- SEND, present (R122): InvalidArgument, then Busy (R211 c), else the word is held. -/
def presentSend (base : LedIndex) (count : Count) (s : State) : Result :=
  if badArgument s.cfg base count then .next (raiseCoded .invalidArgument (sendWord base count) s)
  else if s.cfg.nonblocking && !idleReady s then .next (raiseCoded .busy (sendWord base count) s)
  else .next (holdWord (sendWord base count) .waitSend s)

/-- SEND, accept (R124): low half first, STATE before the engine. -/
def acceptSend (base : LedIndex) (count : Count) (s : State) : Result :=
  andThen (encodeHalf .low (storeReference base count s)) fun s1 =>
  andThen (encodeHalf .high s1) fun s2 => .next (freePort (startEngine (setTx .sending s2)))

/-- SEND (R122 to R124). While HPHASE = wait_send the HOST goes on with the word it holds and with no other (R121). -/
def execSend (base : LedIndex) (count : Count) (s : State) : Result :=
  guardConfig s
    (if s.inited = false then .refused (.notInitialised "SEND")
     else
      match s.hphase with
      | .free => presentSend base count s
      | .waitSend =>
        if s.hcmd = sendWord base count then waitAtPort (acceptSend base count) s else .refused (.notEnabled "SEND")
      | .waitClear => .refused (.notEnabled "SEND"))

/-! ### CLEAR -/

/-- CLEAR, present (R126): InvalidArgument, then Busy, then BorrowViolation (R211 c), else the array is zeroed and the word
is held. -/
def presentClear (base : LedIndex) (count : Count) (s : State) : Result :=
  if badArgument s.cfg base count then .next (raiseCoded .invalidArgument (clearWord base count) s)
  else if s.cfg.nonblocking && !idleReady s then .next (raiseCoded .busy (clearWord base count) s)
  else if overlapsBorrowed s base count then .fault (.borrowViolation (.clear base count))
  else
    .next (holdWord (clearWord base count) .waitClear (setLedmem (zeroLeds s.ledmem base.toNat count.toNat) s))

/-- The physical clear: the whole buffer W0, CLR_CNT <- 0, STATE <- clearing, the engine started (R128; R120 for INIT). -/
def beginClear (s : State) : State := startEngine (setTx .clearing (fillBuffer s))

/-- CLEAR, accept (R128). It writes no P, LED_BASE or LED_COUNT. -/
def acceptClear (s : State) : Result := .next (freePort (beginClear s))

/-- CLEAR (R126 to R128). While HPHASE = wait_clear the HOST goes on with the word it holds and with no other (R121). -/
def execClear (base : LedIndex) (count : Count) (s : State) : Result :=
  guardConfig s
    (if s.inited = false then .refused (.notInitialised "CLEAR")
     else
      match s.hphase with
      | .free => presentClear base count s
      | .waitClear =>
        if s.hcmd = clearWord base count then waitAtPort acceptClear s else .refused (.notEnabled "CLEAR")
      | .waitSend => .refused (.notEnabled "CLEAR"))

/-! ### INIT -/

/-- The setup before INIT's internal clear (R120). -/
def setUp (s : State) : State :=
  { s with inited := true, genRun := true, tx := .idle, engine := .ready, halfPend := false, wrapPend := false }

/-- INIT (R120), guard INITED = 0 and HPHASE = free. No LED element is written (D22). -/
def execInit (s : State) : Result :=
  guardConfig s
    (if s.inited then .refused .alreadyInitialised
     else if s.hphase = .free then .next (beginClear (setUp s))
     else .refused (.notEnabled "INIT"))

/-! ### READY and the pseudo-instructions -/

/-- READY's answer (R130): STATE alone. -/
def giveAnswer (s : State) : State := answer (decide (s.tx = .idle)) s

/-- READY (R130), guard INITED = 1 and HPHASE = free. -/
def execReady (s : State) : Result :=
  guardConfig s
    (if s.inited = false then .refused (.notInitialised "READY")
     else if s.hphase = .free then .next (giveAnswer s)
     else .refused (.notEnabled "READY"))

/-- WAIT (R131): one READY, and WAIT again unless it answered 1 (log 14). -/
def execWait (s : State) : Result :=
  guardConfig s
    (if s.inited = false then .refused (.notInitialised "WAIT")
     else if s.hphase = .free then
      if s.tx = .idle then .next (giveAnswer s) else .next (repeatWait (giveAnswer s))
     else .refused (.notEnabled "WAIT"))

/-- LEDW a, r, g, b (R132), guard HPHASE = free; it needs no INIT. -/
def execLedw (a : LedIndex) (r g b : Byte) (s : State) : Result :=
  guardConfig s
    (if s.hphase = .free then
      if inBorrowed s a then .fault (.borrowViolation (.ledw a r g b))
      else .next (setLedmem (ledWrite s.ledmem a.toNat (r ++ g ++ b)) s)
     else .refused (.notEnabled "LEDW"))

/-- CMD_ACCEPT (R81, R121): the HOST's next step takes the word on the port. READY and INIT are taken when they are presented,
SEND and CLEAR in the accept step. DESIGN CHOICE (log 15): it is 0, too, in the step that drops a SEND or CLEAR word with a
coded fault (InvalidArgument or Busy at presentation, EngineFault at the wait); the HOST goes on without the word (R201,
R203), and the spec gives CMD_ACCEPT no value there. No step reads it. -/
def State.cmdAccept (s : State) : Bool :=
  match s.hphase, s.cmdWord with
  | .waitSend, some _ => s.inited && idleReady s
  | .waitClear, some _ => s.inited && idleReady s
  | .free, some w =>
    match decodeCmd w with
    | .ok .ready => s.inited
    | .ok .init => !s.inited
    | _ => false
  | _, none => false

end Sys2Proof.Machine
end

