-- ==== Sys2Proof/Machine/Generator.lean ====
section
/-! DEFINITION. The Timing Generator at tick level: GEN_TICK (44_timing_generator.md R184). -/

namespace Sys2Proof.Machine

/-- The part of GEN_TICK before the pin: at the first tick of a period a running engine makes its transfer, which loads DUTY
for this period, and ACTIVE is sampled (R184, D16). -/
def startPeriod (s : State) : Result :=
  if s.tick = 0 then
    if s.engine = .busy then andThen (transferEntry s) fun t => .next (setActive true t)
    else .next (setActive false s)
  else .next s

/-- The pin of this tick and the count of ticks (R184); the level is appended to the waveform (R7 a). -/
def drivePin (s : State) : State :=
  { s with pin := pinLevel s, wave := s.wave ++ [pinLevel s], tick := nextTick s }

/-- GEN_TICK (R184), guard GEN_RUN = 1. -/
def execGenTick (s : State) : Result :=
  guardConfig s
    (if s.genRun then andThen (startPeriod s) fun t => .next (drivePin t) else .refused (.notEnabled "GEN_TICK"))

end Sys2Proof.Machine
end

