-- ==== Sys2Proof/Machine/Dispatch.lean ====
section
/-! DEFINITION. The dispatch of every operation to its meaning. -/

namespace Sys2Proof.Machine

def exec (i : Instr) (s : State) : Host.Outcome State Fault Refusal :=
  match i with
  | .ready => Sys2Proof.Machine.execReady s
  | .send base count => Sys2Proof.Machine.execSend base count s
  | .clear base count => Sys2Proof.Machine.execClear base count s
  | .init => Sys2Proof.Machine.execInit s
  | .evHalf => Sys2Proof.Machine.execEvHalf s
  | .evWrap => Sys2Proof.Machine.execEvWrap s
  | .encodeUnit h j => Sys2Proof.Machine.execEncodeUnit h j s
  | .encodeHalf h => Sys2Proof.Machine.execEncodeHalf h s
  | .engStart => Sys2Proof.Machine.execEngStart s
  | .engStop => Sys2Proof.Machine.execEngStop s
  | .engXfer => Sys2Proof.Machine.execEngXfer s
  | .genTick => Sys2Proof.Machine.execGenTick s
  | .wait => Sys2Proof.Machine.execWait s
  | .ledw a r g b => Sys2Proof.Machine.execLedw a r g b s

end Sys2Proof.Machine
end

