-- ==== Sys2Proof/Machine/Fetch.lean ====
section
/-! DEFINITION. Whose turn it is (00_scope.md R5, R39, R165) and what that agent runs: the HOST from its command sequence and the
command port (R81, R121), the HANDLER by the event vector (R85, R140), the ENGINE and the GENERATOR while they are enabled
(R163, R184, R185). -/

namespace Sys2Proof.Machine

/-- What an agent's turn comes to. -/
inductive Fetched where
  /-- The agent runs an operation on the state after the fetch. -/
  | run (i : Instr) (s : State)
  /-- The agent has no enabled step: its turn passes and nothing changes. -/
  | pass
  /-- The vector names no step that a good run can take (U19). -/
  | fault (f : Fault)
  /-- The HOST presents a word the spec gives no meaning (R84). -/
  | refused (r : Refusal)
  deriving DecidableEq, Repr

/-- The agent whose step is, or contains, the transfer at this level of description (R4, R184). -/
def pacer (c : Config) : Agent :=
  match c.level with
  | .period => .engine
  | .tick => .generator

/-- The next turn: the first of the decided ones, else the first of a new round of the free schedule (log 2). A round is any
finite list of turns and then one of the pacer, so a schedule may hold an enabled transfer off for as long as it likes, and
not for ever: the one fairness assumption of R165. -/
def takeTurn (s : State) : Agent × State :=
  match s.turns with
  | a :: rest => (a, { s with turns := rest })
  | [] =>
    match Config.freeTurns s.turnCount with
    | [] => (pacer s.cfg, { s with turnCount := s.turnCount + 1 })
    | a :: rest => (a, { s with turns := rest ++ [pacer s.cfg], turnCount := s.turnCount + 1 })

/-- A command word on the port, decoded (R83, R84). -/
def fetchWord (w : CmdWord) (s : State) : Fetched :=
  match decodeCmd w with
  | .ok i => .run i s
  | .error _ => .refused (.reservedOp w)

/-- The HOST's turn: with a free port the next line of its sequence, else the word it holds (R121). -/
def fetchHost (s : State) : Fetched :=
  match s.hphase with
  | .waitSend => fetchWord s.hcmd s
  | .waitClear => fetchWord s.hcmd s
  | .free =>
    match s.script with
    | [] => .pass
    | .word w :: rest => fetchWord w { s with script := rest }
    | .wait :: rest => .run .wait { s with script := rest }
    | .ledw a r g b :: rest => .run (.ledw a r g b) { s with script := rest }

/-- The HANDLER's turn: dispatch on the event vector (R85); both events at once are a fault (U19, log 13). -/
def fetchHandler (s : State) : Fetched :=
  match decodeEvt (eventVector s) with
  | .ok i => .run i s
  | .error .noEvent => .pass
  | .error (.reservedOp _) => .pass
  | .error .bothEvents => .fault .bothEventsPending

/-- The ENGINE's turn. At tick level ENG_XFER is no free step (R184, log 11). -/
def fetchEngine (s : State) : Fetched :=
  match s.cfg.level with
  | .period => if engineRuns s then .run .engXfer s else .pass
  | .tick => .pass

/-- The GENERATOR's turn. At period level its step is folded into ENG_XFER (R4, log 11). -/
def fetchGenerator (s : State) : Fetched :=
  match s.cfg.level with
  | .period => .pass
  | .tick => if s.genRun then .run .genTick s else .pass

/-- What the agent whose turn it is runs. -/
def fetch (a : Agent) (s : State) : Fetched :=
  match a with
  | .host => fetchHost s
  | .handler => fetchHandler s
  | .engine => fetchEngine s
  | .generator => fetchGenerator s

/-- One turn. -/
def runTurn (a : Agent) (s : State) : Result :=
  match fetch a s with
  | .run i t => exec i t
  | .pass => .next s
  | .fault f => .fault f
  | .refused r => .refused r

/-- The word stored where the next step fetches: an event vector in the pending flags, a command word at the head of the
HOST's sequence with the port free; and the turn given to the agent that fetches it (log 6). -/
def placeWord (s : State) (nbits w : Nat) : State :=
  if nbits ≤ 8 then { s with halfPend := w.testBit 0, wrapPend := w.testBit 1, turns := .handler :: s.turns }
  else { s with script := .word (BitVec.ofNat 32 w) :: s.script, hphase := .free, turns := .host :: s.turns }

end Sys2Proof.Machine
end

