-- ==== Sys2Proof/Machine/Step.lean ====
section
/-! DEFINITION. One step of the machine: one atomic step of the agent whose turn it is (00_scope.md R4, R5, R6). -/

namespace Sys2Proof.Machine

/-- One step. A configuration outside the constraints of R11 is REFUSED (R207). -/
def step (s : State) : Host.Outcome State Fault Refusal :=
  guardConfig s (runTurn (takeTurn s).1 (takeTurn s).2)

/-- The state with the instruction of the opcode table's word placed where step fetches it (log 6). -/
def State.withFetchWord (s : State) (nbits w : Nat) : State := placeWord s nbits w

end Sys2Proof.Machine
end

