-- ==== Sys2Proof/Safety.lean ====
section
/-! DEFINITION. What a good state is: the invariants of the spec (10_state.md R37, R38; 42_event_handler.md R145), each in the
terms of the state; what an observer sees (00_scope.md R7); and the repeated steps the claims speak of. -/

namespace Sys2Proof.Machine

/-! ### The invariants -/

/-- The LED space is in canonical form: addresses rise strictly, lie inside the space, and no byte listed is one that an
unlisted address reads as. -/
abbrev Memory.Wf (m : Memory) : Prop :=
  (m.map Prod.fst).Pairwise (· < ·) ∧ (∀ c ∈ m, c.2 ≠ unlistedByte) ∧ ∀ c ∈ m, c.1 < 3 * ledmemSize

/-- The registers whose width depends on the configuration hold legal values (R20, R28, R30, R34). -/
abbrev RegsInRange (s : State) : Prop :=
  s.buf.length = s.cfg.n ∧ s.rdidx < s.cfg.n ∧ s.tick < s.cfg.period

/-- The control state: STATE is never done between steps (R145); ENGINE = busy exactly when STATE is not idle (R38 a, R150);
INITED and GEN_RUN go together, and before INIT the block is idle and its port free (R33, R231). -/
abbrev ControlOk (s : State) : Prop :=
  s.tx ≠ .done ∧ (s.engine = .busy ↔ s.tx ≠ .idle) ∧ s.genRun = s.inited ∧
  (s.inited = false → s.tx = .idle ∧ s.hphase = .free)

/-- The events: at most one is pending (R29), none while ENGINE = ready (R38 b). -/
abbrev EventsOk (s : State) : Prop :=
  ¬(s.halfPend = true ∧ s.wrapPend = true) ∧ (s.engine = .ready → s.halfPend = false ∧ s.wrapPend = false)

/-- The buffer: from INIT on every entry is one of the two symbols, and while clearing every entry is W0 (R37 c). -/
abbrev BufferOk (s : State) : Prop :=
  (s.inited = true → ∀ v ∈ s.buf, v = s.cfg.w0 ∨ v = s.cfg.w1) ∧ (s.tx = .clearing → ∀ v ∈ s.buf, v = s.cfg.w0)

/-- The counters: while sending P ≤ LED_COUNT + D, the count is at most MAX_LEDS and the array lies inside the LED space
(R37 b, R202); while clearing CLR_CNT is below CLEAR_LIMIT (R24). -/
abbrev CountersOk (s : State) : Prop :=
  (s.tx = .sending →
    s.p.toNat ≤ totalUnits s ∧ s.ledCount.toNat ≤ s.cfg.maxLeds ∧ s.ledBase.toNat + s.ledCount.toNat ≤ ledmemSize) ∧
  (s.tx = .clearing → s.clrCnt.toNat < s.cfg.clearLimit)

/-- The port: a word that waits is a SEND or a CLEAR that passed the argument check (R36, R121, R202). -/
abbrev PortOk (s : State) : Prop :=
  (s.hphase = .waitSend →
    s.hcmd = sendWord (baseField s.hcmd) (countField s.hcmd) ∧
    badArgument s.cfg (baseField s.hcmd) (countField s.hcmd) = false) ∧
  (s.hphase = .waitClear →
    s.hcmd = clearWord (baseField s.hcmd) (countField s.hcmd) ∧
    badArgument s.cfg (baseField s.hcmd) (countField s.hcmd) = false)

/-- From INIT on the slack entries of both halves hold W0 (R58). -/
abbrev SlackOk (s : State) : Prop :=
  s.inited = true → ∀ h i, halfBase s.cfg h + unitSize * s.cfg.k ≤ i → i < halfBase s.cfg h + s.cfg.half →
    s.buf[i]? = some s.cfg.w0

/-- The whole invariant of the machine. -/
structure Inv (s : State) : Prop where
  config : s.cfg.wf = true
  regs : RegsInRange s
  memory : Memory.Wf s.ledmem
  control : ControlOk s
  events : EventsOk s
  buffer : BufferOk s
  counters : CountersOk s
  port : PortOk s

/-! ### Observation -/

/-- What an observer outside the block sees (R7): the pulse train, the pin waveform at tick level, the LED Array, the answers of
READY, and ERR. -/
structure Observation where
  out : List Val
  wave : List Bool
  leds : Memory
  answers : List Bool
  err : BitVec 3
  deriving DecidableEq, Repr

/-- The observation of a state (R7). -/
def observe (s : State) : Observation := ⟨s.out, s.wave, s.ledmem, s.answers, s.err⟩

/-- STATE, the step it was changed by and its new value form a row of the transition table, or STATE is unchanged (R150). -/
def legalTransition (i : Instr) (s t : State) : Bool :=
  match s.tx, t.tx with
  | .idle, .sending =>
    match i with
    | .send _ _ => decide (s.engine = .ready) && decide (t.engine = .busy)
    | _ => false
  | .idle, .clearing =>
    match i with
    | .clear _ _ => decide (s.engine = .ready) && decide (t.engine = .busy)
    | .init => decide (t.engine = .busy)
    | _ => false
  | .sending, .idle =>
    match i with
    | .evHalf | .evWrap => decide (totalUnits s ≤ s.p.toNat) && decide (t.engine = .ready)
    | _ => false
  | .clearing, .idle =>
    match i with
    | .evWrap => decide (s.cfg.clearLimit ≤ s.clrCnt.toNat + 1) && decide (t.engine = .ready)
    | _ => false
  | x, y => decide (x = y)

/-! ### The units of a transmission -/

/-- Unit u of the transmission, u from 0: the data unit of LED u, then dead-time units (R105). -/
def transmissionUnit (s : State) (u : Nat) : List Val :=
  if u < s.ledCount.toNat then dataUnit s.cfg (ledRead s.ledmem (s.ledBase.toNat + u)) else deadUnit s.cfg

/-- The transmission's array lies inside the LED space and its units fit the counter (R11, R52, R202). -/
abbrev TransmissionOk (s : State) : Prop :=
  s.ledBase.toNat + s.ledCount.toNat ≤ ledmemSize ∧ totalUnits s < 2 ^ 16

/-! ### Runs -/

/-- `k` steps of the machine in a row. -/
def steps : Nat → State → Result
  | 0, s => .next s
  | k + 1, s => andThen (step s) (steps k)

/-- The stops that a run from a good state can come to, each a duty of the caller or the integrator: the deadline (R240), the
borrowed array (R241), and a word that is no command (R84) or a second INIT (R120) in the HOST's sequence. -/
inductive DutyStop : Result → Prop where
  | overrun : DutyStop (.fault .overrun)
  | borrowViolation (i : Instr) : DutyStop (.fault (.borrowViolation i))
  | reservedOp (w : CmdWord) : DutyStop (.refused (.reservedOp w))
  | alreadyInitialised : DutyStop (.refused .alreadyInitialised)

/-! ### Repeated steps -/

/-- `k` transfers of the engine in a row. -/
def transfers : Nat → State → Result
  | 0, s => .next s
  | k + 1, s => andThen (exec .engXfer s) (transfers k)

/-- `k` ticks of the generator in a row. -/
def ticks : Nat → State → Result
  | 0, s => .next s
  | k + 1, s => andThen (exec .genTick s) (ticks k)

/-- The handler of the event that is pending, if one is (R140). -/
def serveEvent (s : State) : Result :=
  if s.halfPend then exec .evHalf s else if s.wrapPend then exec .evWrap s else .next s

/-- `e` halves of the eager schedule (R19, D27): the engine streams a half, and the handler of the event runs at once. -/
def eagerHalves : Nat → State → Result
  | 0, s => .next s
  | e + 1, s => andThen (transfers s.cfg.half s) fun t => andThen (serveEvent t) (eagerHalves e)

/-- From a state at the start of a clear, the eager schedule comes to the end of the clear at event 2 × CLEAR_LIMIT, after whole
cycles of W0 appended to `out` (R149). -/
def ClearsInCycles (s : State) (out : List Val) : Prop :=
  ∃ t, eagerHalves (2 * s.cfg.clearLimit) s = .next t ∧ t.tx = .idle ∧ t.engine = .ready ∧
    t.clrCnt.toNat = s.cfg.clearLimit ∧ t.buf = List.replicate s.cfg.n s.cfg.w0 ∧
    t.out = out ++ List.replicate (s.cfg.clearLimit * s.cfg.n) s.cfg.w0

/-- E, the number of the event that ends a SEND of `units` units (R147). -/
def endEvent (c : Config) (units : Nat) : Nat := max 1 ((units + c.k - 1) / c.k - 1)

end Sys2Proof.Machine
end

