-- ==== Sys2Proof/Certificates/Slice0/Obligations.lean ====
section
/-! DEFINITION. The statements made about the model, for the provers. -/

open Sys2Proof Sys2Proof.Machine

/-! ### Encodings -/

/-- Decoding the bits of an instruction that has bits gives it back, with every operand at every value (R81, R83, R85). -/
def Obligations.EncodeThenDecode : Prop :=
  ∀ (i : Instr) (e : Encoded), encode i = some e → decode e = .ok i

/-- A command word that decodes has one meaning: the encoding of what it decodes to has the same OP, and is the word itself
for SEND and CLEAR; READY and INIT ignore BASE and COUNT (R82, R83). -/
def Obligations.DecodeThenEncode : Prop :=
  ∀ (w : CmdWord) (i : Instr), decodeCmd w = .ok i →
    ∃ w', encode i = some (.cmd w') ∧ opField w' = opField w ∧ (i ≠ .ready → i ≠ .init → w' = w)

/-- A word selects a row of the opcode map exactly when (w AND mask) = match (R83). -/
def Obligations.DecodeFollowsOpcodeMap : Prop :=
  ∀ w : CmdWord,
    (decodeCmd w = .ok .ready ↔ w &&& 0xF0000000#32 = 0x00000000#32) ∧
    (decodeCmd w = .ok (.send (baseField w) (countField w)) ↔ w &&& 0xF0000000#32 = 0x10000000#32) ∧
    (decodeCmd w = .ok (.clear (baseField w) (countField w)) ↔ w &&& 0xF0000000#32 = 0x20000000#32) ∧
    (decodeCmd w = .ok .init ↔ w &&& 0xF0000000#32 = 0x30000000#32)

/-- OP values 0x4 to 0xF are reserved: the decoder says so, and the machine refuses a run that presents one; every other
word is one of the four commands (R84). -/
def Obligations.ReservedOpRefused : Prop :=
  ∀ w : CmdWord,
    (4 ≤ w.toNat / 2 ^ 28 → decodeCmd w = .error (.reservedOp (opField w)) ∧
      ∀ (s : State) (rest : List HostItem) (later : List Agent), s.cfg.wf = true → s.hphase = .free →
        s.script = .word w :: rest → s.turns = .host :: later → step s = .refused (.reservedOp w)) ∧
    (w.toNat / 2 ^ 28 < 4 → ∃ i : Instr, decodeCmd w = .ok i ∧ i.format = .cmd)

/-- The command words and event vectors of 95_test_vectors.md V18 decode as listed there, and a SEND or CLEAR line has the word
OP × 2^28 + base × 2^16 + count (R92). -/
def Obligations.CommandWordsOfVectors : Prop :=
  decodeCmd 0x00000000#32 = .ok .ready ∧ decodeCmd 0x30000000#32 = .ok .init ∧
  decodeCmd 0x10000001#32 = .ok (.send 0 1) ∧ decodeCmd 0x10000003#32 = .ok (.send 0 3) ∧
  decodeCmd 0x10640001#32 = .ok (.send 100 1) ∧ decodeCmd 0x1FFFFFFF#32 = .ok (.send 0xFFF 0xFFFF) ∧
  decodeCmd 0x20000001#32 = .ok (.clear 0 1) ∧ decodeCmd 0x20010001#32 = .ok (.clear 1 1) ∧
  decodeCmd 0x20000000#32 = .ok (.clear 0 0) ∧
  decodeCmd 0x0ABC1234#32 = .ok .ready ∧ decodeCmd 0x3FFFFFFF#32 = .ok .init ∧
  decodeCmd 0x40000000#32 = .error (.reservedOp 4) ∧ decodeCmd 0x80000001#32 = .error (.reservedOp 8) ∧
  decodeCmd 0xF0000000#32 = .error (.reservedOp 15) ∧
  decodeEvt 1 = .ok .evHalf ∧ decodeEvt 2 = .ok .evWrap ∧ decodeEvt 0 = .error .noEvent ∧
  ∀ (base : LedIndex) (count : Count),
    (sendWord base count).toNat = 1 * 2 ^ 28 + base.toNat * 2 ^ 16 + count.toNat ∧
    (clearWord base count).toNat = 2 * 2 ^ 28 + base.toNat * 2 ^ 16 + count.toNat

/-- The HANDLER dispatches on WRAP_PEND ‖ HALF_PEND: 00 no step, 01 EV_HALF, 10 EV_WRAP (R85); on 11, which needs an
Overrun to arise, the model faults, its own choice (U19, log 13). -/
def Obligations.EventVectorSelectsHandler : Prop :=
  ∀ s : State,
    (s.wrapPend = false → s.halfPend = false → fetch .handler s = .pass) ∧
    (s.wrapPend = false → s.halfPend = true → fetch .handler s = .run .evHalf s) ∧
    (s.wrapPend = true → s.halfPend = false → fetch .handler s = .run .evWrap s) ∧
    (s.wrapPend = true → s.halfPend = true → fetch .handler s = .fault .bothEventsPending)

/-- The inverse code gives back the colour a data unit was made of, and a dead-time unit is the data unit of (0, 0, 0)
(R89, R90). -/
def Obligations.UnitDecodesToColour : Prop :=
  ∀ (c : Config) (v : Colour), c.wf = true → colourOf c (dataUnit c v) = v ∧ deadUnit c = dataUnit c 0

/-! ### The Bit Encoder -/

/-- ENCODE_UNIT, data case: the 24 entries of the slot are Sym of the current LED's bits, most significant first, P rises by
one, and nothing else changes (R101). -/
def Obligations.EncodeUnitDataCase : Prop :=
  ∀ (s : State) (h : Half) (j : Nat), s.cfg.wf = true → j < s.cfg.k → s.buf.length = s.cfg.n →
    s.p.toNat < s.ledCount.toNat → s.ledBase.toNat + s.p.toNat < ledmemSize →
    ∃ t, exec (.encodeUnit h j) s = .next t ∧
      (∀ k, k < 24 → t.buf[slotBase s.cfg h j + k]? =
        some (sym s.cfg ((ledRead s.ledmem (s.ledBase.toNat + s.p.toNat)).getLsbD (23 - k)))) ∧
      t.p.toNat = s.p.toNat + 1 ∧
      (∀ i, i < slotBase s.cfg h j ∨ slotBase s.cfg h j + 24 ≤ i → t.buf[i]? = s.buf[i]?) ∧
      t = { s with buf := t.buf, p := t.p }

/-- ENCODE_UNIT, dead-time case: the 24 entries of the slot are W0, P rises by one, and nothing else changes (R102). -/
def Obligations.EncodeUnitDeadTimeCase : Prop :=
  ∀ (s : State) (h : Half) (j : Nat), s.cfg.wf = true → j < s.cfg.k → s.buf.length = s.cfg.n →
    s.ledCount.toNat ≤ s.p.toNat → s.p.toNat < s.ledCount.toNat + s.cfg.d → s.ledCount.toNat + s.cfg.d < 2 ^ 16 →
    ∃ t, exec (.encodeUnit h j) s = .next t ∧
      (∀ k, k < 24 → t.buf[slotBase s.cfg h j + k]? = some s.cfg.w0) ∧
      t.p.toNat = s.p.toNat + 1 ∧
      (∀ i, i < slotBase s.cfg h j ∨ slotBase s.cfg h j + 24 ≤ i → t.buf[i]? = s.buf[i]?) ∧
      t = { s with buf := t.buf, p := t.p }

/-- ENCODE_UNIT, exhausted case: nothing is written (R103). -/
def Obligations.EncodeUnitExhaustedCase : Prop :=
  ∀ (s : State) (h : Half) (j : Nat), s.cfg.wf = true → j < s.cfg.k → s.ledCount.toNat + s.cfg.d ≤ s.p.toNat →
    exec (.encodeUnit h j) s = .next s

/-- ENCODE_HALF encodes the next K units, or as many as remain, into slots 0 to K − 1 of the half in order, and leaves the
other slots as they were; P' = min(P + K, LED_COUNT + D) (R104, R105, R106). -/
def Obligations.EncodeHalfWritesUnits : Prop :=
  ∀ (s : State) (h : Half), s.cfg.wf = true → s.buf.length = s.cfg.n → TransmissionOk s →
    ∃ t, exec (.encodeHalf h) s = .next t ∧
      (s.p.toNat ≤ totalUnits s → t.p.toNat = min (s.p.toNat + s.cfg.k) (totalUnits s)) ∧
      (totalUnits s ≤ s.p.toNat → t = s) ∧
      (∀ j k, j < s.cfg.k → k < 24 → t.buf[slotBase s.cfg h j + k]? =
        if s.p.toNat + j < totalUnits s then (transmissionUnit s (s.p.toNat + j))[k]?
        else s.buf[slotBase s.cfg h j + k]?)

/-- The frame of ENCODE_HALF: only the LED slots of its half and P change; the other half, the slack entries, the LED space
and every other register stay (R104). -/
def Obligations.EncodeHalfFrame : Prop :=
  ∀ (s t : State) (h : Half), exec (.encodeHalf h) s = .next t →
    (∀ i, i < halfBase s.cfg h ∨ halfBase s.cfg h + 24 * s.cfg.k ≤ i → t.buf[i]? = s.buf[i]?) ∧
    t.buf.length = s.buf.length ∧ t = { s with buf := t.buf, p := t.p }

/-! ### The Block Transfer Engine -/

/-- ENG_START: RDIDX 0, both flags cleared, ENGINE busy, nothing else (R161). -/
def Obligations.EngStartEffect : Prop :=
  ∀ s : State, s.cfg.wf = true →
    exec .engStart s = .next { s with rdidx := 0, halfPend := false, wrapPend := false, engine := .busy }

/-- ENG_STOP: ENGINE ready, nothing else; after it no ENG_XFER is enabled (R162). That an ENG_XFER asked for then is refused
notEnabled (log 9), and that the ENGINE's turn passes (log 2), are the model's choices. -/
def Obligations.EngStopEffect : Prop :=
  ∀ s : State, s.cfg.wf = true →
    ∃ t, exec .engStop s = .next t ∧ t = { s with engine := .ready } ∧
      exec .engXfer t = .refused (.notEnabled "ENG_XFER") ∧ fetch .engine t = .pass

/-- ENG_XFER: DUTY and one pulse of the entry read, RDIDX advanced modulo N, a flag set at each boundary, and nothing else
(R163). -/
def Obligations.EngXferEffect : Prop :=
  ∀ (s : State) (v : Val), s.cfg.wf = true → s.engine = .busy → s.genRun = true → s.buf[s.rdidx]? = some v →
    (((s.rdidx + 1) % s.cfg.n = s.cfg.half ∨ (s.rdidx + 1) % s.cfg.n = 0) → s.halfPend = false ∧ s.wrapPend = false) →
    exec .engXfer s = .next { s with
      duty := v
      out := s.out ++ [v]
      rdidx := (s.rdidx + 1) % s.cfg.n
      halfPend := s.halfPend || decide ((s.rdidx + 1) % s.cfg.n = s.cfg.half)
      wrapPend := s.wrapPend || decide ((s.rdidx + 1) % s.cfg.n = 0) }

/-- The half-consumed event is raised by the transfer that reads entry H − 1 and the wrap event by the one that reads entry
N − 1, by no other; a flag that is set stays set (R164). -/
def Obligations.EventsAtHalfBoundaries : Prop :=
  ∀ s t : State, s.rdidx < s.cfg.n → exec .engXfer s = .next t →
    (t.halfPend = true ↔ s.halfPend = true ∨ s.rdidx = s.cfg.half - 1) ∧
    (t.wrapPend = true ↔ s.wrapPend = true ∨ s.rdidx = s.cfg.n - 1)

/-- Overrun: an enabled ENG_XFER faults so exactly when its increment would make RDIDX equal to H or to 0 while a flag is
set; GEN_TICK faults so through its ENG_XFER (R166, R205). -/
def Obligations.OverrunExactlyWhenLate : Prop :=
  ∀ s : State, s.cfg.wf = true → s.engine = .busy → s.genRun = true →
    (exec .engXfer s = .fault .overrun ↔
      ((s.rdidx + 1) % s.cfg.n = s.cfg.half ∨ (s.rdidx + 1) % s.cfg.n = 0) ∧
        (s.halfPend = true ∨ s.wrapPend = true)) ∧
    (s.tick = 0 → (exec .genTick s = .fault .overrun ↔ exec .engXfer s = .fault .overrun))

/-- Transfers in a row up to the end of the half being read emit its entries in ascending order, each once, and raise the event
with the last one (R163, R164). -/
def Obligations.TransfersStreamTheHalf : Prop :=
  ∀ (s : State) (m : Nat), s.cfg.wf = true → RegsInRange s → s.engine = .busy → s.genRun = true →
    s.halfPend = false → s.wrapPend = false →
    s.rdidx + m ≤ (if s.rdidx < s.cfg.half then s.cfg.half else s.cfg.n) →
    ∃ t, transfers m s = .next t ∧ t.out = s.out ++ (s.buf.drop s.rdidx).take m ∧
      t.rdidx = (s.rdidx + m) % s.cfg.n ∧
      (t.halfPend = true ↔ 0 < m ∧ s.rdidx + m = s.cfg.half) ∧ (t.wrapPend = true ↔ 0 < m ∧ s.rdidx + m = s.cfg.n) ∧
      t = { s with
        out := t.out
        duty := t.duty
        rdidx := t.rdidx
        halfPend := t.halfPend
        wrapPend := t.wrapPend }

/-! ### The Timing Generator -/

/-- GEN_TICK: at the first tick of a period a running engine makes its transfer, or faults with Overrun, and ACTIVE is
sampled; then the pin is ACTIVE ∧ TICK < DUTY and TICK advances modulo PERIOD. At tick level ENG_XFER is no free step
(R184). At a later tick ENGINE plays no part, so the pulse of the period in which the engine is stopped completes: there the
model follows R184 against R162 and R183, its own reading (log 7). -/
def Obligations.GenTickEffect : Prop :=
  ∀ s : State, s.cfg.wf = true → s.genRun = true →
    (s.tick ≠ 0 → exec .genTick s = .next { s with
      pin := s.active && decide (s.tick < s.duty.toNat)
      wave := s.wave ++ [s.active && decide (s.tick < s.duty.toNat)]
      tick := (s.tick + 1) % s.cfg.period }) ∧
    (s.tick = 0 → s.engine = .ready → exec .genTick s = .next { s with
      active := false
      pin := false
      wave := s.wave ++ [false]
      tick := 1 % s.cfg.period }) ∧
    (s.tick = 0 → s.engine = .busy → ∀ v, s.buf[s.rdidx]? = some v →
      (((s.rdidx + 1) % s.cfg.n = s.cfg.half ∨ (s.rdidx + 1) % s.cfg.n = 0) → s.halfPend = false ∧ s.wrapPend = false) →
      exec .genTick s = .next { s with
        duty := v
        out := s.out ++ [v]
        rdidx := (s.rdidx + 1) % s.cfg.n
        halfPend := s.halfPend || decide ((s.rdidx + 1) % s.cfg.n = s.cfg.half)
        wrapPend := s.wrapPend || decide ((s.rdidx + 1) % s.cfg.n = 0)
        active := true
        pin := decide (0 < v.toNat)
        wave := s.wave ++ [decide (0 < v.toNat)]
        tick := 1 % s.cfg.period }) ∧
    (s.tick = 0 → s.engine = .busy → ((s.rdidx + 1) % s.cfg.n = s.cfg.half ∨ (s.rdidx + 1) % s.cfg.n = 0) →
      (s.halfPend = true ∨ s.wrapPend = true) → exec .genTick s = .fault .overrun) ∧
    (s.cfg.level = .tick → fetch .engine s = .pass)

/-- A period that begins with the engine running, and whose transfer is no Overrun, makes that one transfer, of an entry v,
and is v high ticks, then low ticks to the end of the period. A period that begins with the engine stopped emits no pulse and
is low throughout (R183, R184, R185). -/
def Obligations.OnePeriodOnePulse : Prop :=
  (∀ (s : State) (v : Val), s.cfg.wf = true → s.genRun = true → s.engine = .busy → s.tick = 0 →
    s.buf[s.rdidx]? = some v →
    (((s.rdidx + 1) % s.cfg.n = s.cfg.half ∨ (s.rdidx + 1) % s.cfg.n = 0) → s.halfPend = false ∧ s.wrapPend = false) →
    ∃ t, ticks s.cfg.period s = .next t ∧ t.out = s.out ++ [v] ∧ t.tick = 0 ∧ t.rdidx = (s.rdidx + 1) % s.cfg.n ∧
      t.wave = s.wave ++ List.replicate (min v.toNat s.cfg.period) true ++
        List.replicate (s.cfg.period - v.toNat) false) ∧
  ∀ s : State, s.cfg.wf = true → s.genRun = true → s.engine = .ready → s.tick = 0 →
    ∃ t, ticks s.cfg.period s = .next t ∧ t.out = s.out ∧ t.tick = 0 ∧ t.duty = s.duty ∧
      t.wave = s.wave ++ List.replicate s.cfg.period false

/-! ### The event handler -/

/-- EV_HALF acknowledges, then: sending with units left, it refills the low half; sending with none left (or in done), it
stops the engine and goes to idle; in idle and clearing it does nothing else (R141, R144, R146). -/
def Obligations.EvHalfEffect : Prop :=
  ∀ s : State, s.cfg.wf = true → s.halfPend = true →
    (s.tx = .sending → s.p.toNat < s.ledCount.toNat + s.cfg.d → TransmissionOk s →
      ∃ t, exec .evHalf s = .next t ∧ exec (.encodeHalf .low) { s with halfPend := false } = .next t ∧
        t.tx = .sending) ∧
    ((s.tx = .sending ∧ s.ledCount.toNat + s.cfg.d ≤ s.p.toNat) ∨ s.tx = .done →
      exec .evHalf s = .next { s with halfPend := false, engine := .ready, tx := .idle }) ∧
    (s.tx = .idle ∨ s.tx = .clearing → exec .evHalf s = .next { s with halfPend := false })

/-- EV_WRAP acknowledges, then: sending as EV_HALF with the high half; while clearing it counts one clear cycle, and at
CLEAR_LIMIT stops the engine and goes to idle; in idle it does nothing else (R142). -/
def Obligations.EvWrapEffect : Prop :=
  ∀ s : State, s.cfg.wf = true → s.wrapPend = true →
    (s.tx = .sending → s.p.toNat < s.ledCount.toNat + s.cfg.d → TransmissionOk s →
      ∃ t, exec .evWrap s = .next t ∧ exec (.encodeHalf .high) { s with wrapPend := false } = .next t ∧
        t.tx = .sending) ∧
    ((s.tx = .sending ∧ s.ledCount.toNat + s.cfg.d ≤ s.p.toNat) ∨ s.tx = .done →
      exec .evWrap s = .next { s with wrapPend := false, engine := .ready, tx := .idle }) ∧
    (s.tx = .idle → exec .evWrap s = .next { s with wrapPend := false }) ∧
    (s.tx = .clearing → s.clrCnt.toNat + 1 < s.cfg.clearLimit →
      exec .evWrap s = .next { s with wrapPend := false, clrCnt := s.clrCnt + 1 }) ∧
    (s.tx = .clearing → s.cfg.clearLimit ≤ s.clrCnt.toNat + 1 →
      exec .evWrap s = .next { s with wrapPend := false, clrCnt := s.clrCnt + 1, engine := .ready, tx := .idle })

/-- The frame of the handlers: they write STATE, ENGINE, P, CLR_CNT, BUF and their own flag, and neither the other flag, nor
RDIDX, DUTY, the LED space, the borrowed reference, nor anything else (R42). -/
def Obligations.HandlerFrame : Prop :=
  ∀ s t : State,
    (exec .evHalf s = .next t →
      t = { s with tx := t.tx, engine := t.engine, p := t.p, buf := t.buf, halfPend := false }) ∧
    (exec .evWrap s = .next t →
      t = { s with tx := t.tx, engine := t.engine, p := t.p, clrCnt := t.clrCnt, buf := t.buf, wrapPend := false })

/-! ### The commands of the HOST -/

/-- INIT, whatever the unspecified values were: INITED and GEN_RUN set, the whole buffer W0, CLR_CNT 0, STATE clearing, the
engine started at entry 0 with no event pending, and nothing else changed; a second INIT is refused (R120, R232). -/
def Obligations.InitEffect : Prop :=
  ∀ s : State, s.cfg.wf = true →
    (s.inited = false → s.hphase = .free → exec .init s = .next { s with
      inited := true
      genRun := true
      tx := .clearing
      engine := .busy
      halfPend := false
      wrapPend := false
      rdidx := 0
      clrCnt := 0
      buf := List.replicate s.cfg.n s.cfg.w0 }) ∧
    (s.inited = true → exec .init s = .refused .alreadyInitialised)

/-- Before INIT the block takes no SEND, CLEAR or READY: they are refused until INITED = 1, and INIT, the one command it
takes, runs (R231). That WAIT is refused as the READY it presents (R93, R131) is the model's choice (log 14). -/
def Obligations.OnlyInitBeforeInit : Prop :=
  ∀ s : State, s.cfg.wf = true → s.inited = false →
    exec .ready s = .refused (.notInitialised "READY") ∧ exec .wait s = .refused (.notInitialised "WAIT") ∧
    (∀ (base : LedIndex) (count : Count), exec (.send base count) s = .refused (.notInitialised "SEND") ∧
      exec (.clear base count) s = .refused (.notInitialised "CLEAR")) ∧
    (s.hphase = .free → ∃ t, exec .init s = .next t ∧ t.inited = true)

/-- A configuration that breaks a constraint is refused, by every operation and by every step, so a run that goes on has
N even and at least 48, 0 < W0 < W1 ≤ PERIOD, PERIOD ≥ 2, 1 ≤ CLEAR_LIMIT < 2^16 and MAX_LEDS + D < 2^16 (R11, R24,
R207). -/
def Obligations.BadConfigurationRefused : Prop :=
  (∀ (i : Instr) (s : State), s.cfg.wf = false → exec i s = .refused .badConfig ∧ step s = .refused .badConfig) ∧
  ∀ c : Config, c.wf = true ↔
    c.n % 2 = 0 ∧ 48 ≤ c.n ∧ 0 < c.w0.toNat ∧ c.w0.toNat < c.w1.toNat ∧ c.w1.toNat ≤ c.period ∧ 2 ≤ c.period ∧
    1 ≤ c.clearLimit ∧ c.clearLimit < 2 ^ 16 ∧ c.maxLeds + c.d < 2 ^ 16

/-- SEND and CLEAR with count > MAX_LEDS or base + count > LEDMEM_SIZE, presented in any state: ERR bit 0 is set and nothing
else of the machine changes, the LED space least of all (R201, R202). The model's log of faults gains the line. -/
def Obligations.InvalidArgumentOnlySetsErr : Prop :=
  ∀ (s : State) (base : LedIndex) (count : Count), s.cfg.wf = true → s.inited = true → s.hphase = .free →
    (s.cfg.maxLeds < count.toNat ∨ ledmemSize < base.toNat + count.toNat) →
    exec (.send base count) s = .next { s with
      err := s.err ||| 0b001#3, faultLog := s.faultLog ++ [⟨.invalidArgument, sendWord base count⟩] } ∧
    exec (.clear base count) s = .next { s with
      err := s.err ||| 0b001#3, faultLog := s.faultLog ++ [⟨.invalidArgument, clearWord base count⟩] }

/-- With NONBLOCKING, a SEND or CLEAR that passes the argument check and is presented while not idle and ready sets ERR bit 2
and changes nothing else; without NONBLOCKING nothing sets that bit, and READY and INIT never do (R204). -/
def Obligations.BusyOnlyWhenNonblocking : Prop :=
  (∀ (s : State) (base : LedIndex) (count : Count), s.cfg.wf = true → s.inited = true → s.hphase = .free →
    count.toNat ≤ s.cfg.maxLeds → base.toNat + count.toNat ≤ ledmemSize → s.cfg.nonblocking = true →
    (s.tx ≠ .idle ∨ s.engine ≠ .ready) →
    exec (.send base count) s = .next { s with
      err := s.err ||| 0b100#3, faultLog := s.faultLog ++ [⟨.busy, sendWord base count⟩] } ∧
    exec (.clear base count) s = .next { s with
      err := s.err ||| 0b100#3, faultLog := s.faultLog ++ [⟨.busy, clearWord base count⟩] }) ∧
  ∀ (i : Instr) (s t : State), (s.cfg.nonblocking = false ∨ i = .ready ∨ i = .init) → exec i s = .next t →
    t.err.getLsbD 2 = s.err.getLsbD 2

/-- SEND that passes its checks is held at the port: HCMD and HPHASE are written, no LED element is read and no shared state is
written (R122). -/
def Obligations.SendPresented : Prop :=
  ∀ (s : State) (base : LedIndex) (count : Count), s.cfg.wf = true → s.inited = true → s.hphase = .free →
    count.toNat ≤ s.cfg.maxLeds → base.toNat + count.toNat ≤ ledmemSize →
    (s.cfg.nonblocking = false ∨ (s.tx = .idle ∧ s.engine = .ready)) →
    exec (.send base count) s = .next { s with hcmd := sendWord base count, hphase := .waitSend }

/-- CLEAR that passes its checks zeroes its array at presentation, whether or not the block is idle, writes no other byte of the
LED space, and is held at the port (R126). -/
def Obligations.ClearPresented : Prop :=
  ∀ (s : State) (base : LedIndex) (count : Count), s.cfg.wf = true → s.inited = true → s.hphase = .free →
    Memory.Wf s.ledmem → count.toNat ≤ s.cfg.maxLeds → base.toNat + count.toNat ≤ ledmemSize →
    (s.cfg.nonblocking = false ∨ (s.tx = .idle ∧ s.engine = .ready)) →
    ¬(s.tx = .sending ∧ 0 < count.toNat ∧ 0 < s.ledCount.toNat ∧ base.toNat < s.ledBase.toNat + s.ledCount.toNat ∧
      s.ledBase.toNat < base.toNat + count.toNat) →
    ∃ t, exec (.clear base count) s = .next t ∧
      (∀ a, base.toNat ≤ a → a < base.toNat + count.toNat → ledRead t.ledmem a = 0) ∧
      (∀ x, x < 3 * base.toNat ∨ 3 * (base.toNat + count.toNat) ≤ x → memRead t.ledmem x = memRead s.ledmem x) ∧
      t = { s with ledmem := t.ledmem, hcmd := clearWord base count, hphase := .waitClear }

/-- A HOST write into the borrowed range while STATE = sending is a BorrowViolation: by CLEAR, once its argument and Busy checks
pass, and by LEDW (R206). -/
def Obligations.BorrowViolationOnOverlap : Prop :=
  ∀ s : State, s.cfg.wf = true → s.hphase = .free → s.tx = .sending →
    (∀ (base : LedIndex) (count : Count), s.inited = true → s.cfg.nonblocking = false →
      count.toNat ≤ s.cfg.maxLeds → base.toNat + count.toNat ≤ ledmemSize →
      (exec (.clear base count) s = .fault (.borrowViolation (.clear base count)) ↔
        ∃ e, base.toNat ≤ e ∧ e < base.toNat + count.toNat ∧ s.ledBase.toNat ≤ e ∧
          e < s.ledBase.toNat + s.ledCount.toNat)) ∧
    ∀ (a : LedIndex) (r g b : Byte),
      (exec (.ledw a r g b) s = .fault (.borrowViolation (.ledw a r g b)) ↔
        s.ledBase.toNat ≤ a.toNat ∧ a.toNat < s.ledBase.toNat + s.ledCount.toNat)

/-- SEND accepted: the reference is stored, the first 2K units are encoded from the low half on and the other slots keep what
they held, P = min(2K, count + D), STATE sending, the engine started, the port free; slack, the LED space and every other
register stay (R124). -/
def Obligations.SendAccepted : Prop :=
  ∀ (s : State) (base : LedIndex) (count : Count), s.cfg.wf = true → s.inited = true → s.hphase = .waitSend →
    s.hcmd = sendWord base count → s.tx = .idle → s.engine = .ready → s.buf.length = s.cfg.n →
    base.toNat + count.toNat ≤ ledmemSize → count.toNat + s.cfg.d < 2 ^ 16 →
    ∃ t, exec (.send base count) s = .next t ∧
      t.p.toNat = min (2 * s.cfg.k) (count.toNat + s.cfg.d) ∧
      (∀ h j k, j < s.cfg.k → k < 24 → t.buf[slotBase s.cfg h j + k]? =
        if halfIndex h * s.cfg.k + j < count.toNat + s.cfg.d then
          (transmissionUnit { s with ledBase := base, ledCount := count } (halfIndex h * s.cfg.k + j))[k]?
        else s.buf[slotBase s.cfg h j + k]?) ∧
      (∀ h i, halfBase s.cfg h + 24 * s.cfg.k ≤ i → i < halfBase s.cfg h + s.cfg.half → t.buf[i]? = s.buf[i]?) ∧
      t = { s with
        ledBase := base
        ledCount := count
        p := t.p
        buf := t.buf
        tx := .sending
        engine := .busy
        rdidx := 0
        halfPend := false
        wrapPend := false
        hphase := .free }

/-- CLEAR accepted: the whole buffer W0, slack included, CLR_CNT 0, STATE clearing, the engine started, the port free; P,
LED_BASE, LED_COUNT and everything else stay (R128). -/
def Obligations.ClearAccepted : Prop :=
  ∀ (s : State) (base : LedIndex) (count : Count), s.cfg.wf = true → s.inited = true → s.hphase = .waitClear →
    s.hcmd = clearWord base count → s.tx = .idle → s.engine = .ready →
    exec (.clear base count) s = .next { s with
      buf := List.replicate s.cfg.n s.cfg.w0
      clrCnt := 0
      tx := .clearing
      engine := .busy
      rdidx := 0
      halfPend := false
      wrapPend := false
      hphase := .free }

/-- A HOST that waits while the block is not idle and ready and the engine streams changes nothing; that its turn is a
step is the model's choice (R121, R123, R127, log 10). -/
def Obligations.WaitingHostSpins : Prop :=
  ∀ (s : State) (base : LedIndex) (count : Count), s.cfg.wf = true → s.inited = true →
    ¬(s.tx = .idle ∧ s.engine = .ready) → s.engine = .busy → s.genRun = true →
    (s.hphase = .waitSend → s.hcmd = sendWord base count → exec (.send base count) s = .next s) ∧
    (s.hphase = .waitClear → s.hcmd = clearWord base count → exec (.clear base count) s = .next s)

/-- A HOST that waits on a stalled engine: with a finite EVENT_TIMEOUT it raises EngineFault, ERR bit 1, frees the port and
abandons the command; with none, and no handler step pending, it is STUCK (R203, R208). -/
def Obligations.StalledEngineEndsTheWait : Prop :=
  ∀ (s : State) (base : LedIndex) (count : Count), s.cfg.wf = true → s.inited = true →
    s.engine = .busy → s.genRun = false →
    (s.cfg.eventTimeout ≠ none →
      (s.hphase = .waitSend → s.hcmd = sendWord base count → exec (.send base count) s = .next { s with
        err := s.err ||| 0b010#3, hphase := .free, faultLog := s.faultLog ++ [⟨.engineFault, s.hcmd⟩] }) ∧
      (s.hphase = .waitClear → s.hcmd = clearWord base count → exec (.clear base count) s = .next { s with
        err := s.err ||| 0b010#3, hphase := .free, faultLog := s.faultLog ++ [⟨.engineFault, s.hcmd⟩] })) ∧
    (s.cfg.eventTimeout = none → s.halfPend = false → s.wrapPend = false →
      (s.hphase = .waitSend → s.hcmd = sendWord base count → exec (.send base count) s = .fault .stuck) ∧
      (s.hphase = .waitClear → s.hcmd = clearWord base count → exec (.clear base count) s = .fault .stuck))

/-- STUCK and EngineFault need an engine that makes no transfer: while GEN_RUN = 1 and ENGINE = busy no operation ends stuck and
none sets ERR bit 1 (R203, R208). -/
def Obligations.RunningEngineNeverStuck : Prop :=
  ∀ (i : Instr) (s : State), s.engine = .busy → s.genRun = true →
    exec i s ≠ .fault .stuck ∧ ∀ t, exec i s = .next t → t.err.getLsbD 1 = s.err.getLsbD 1

/-- READY answers whether STATE = idle, reads nothing else and writes no state; the answer is the observation RESULT. With
INITED = 0 it is refused (R130). -/
def Obligations.ReadyAnswersIdle : Prop :=
  ∀ s : State, s.cfg.wf = true →
    (s.inited = true → s.hphase = .free →
      ∃ t, exec .ready s = .next t ∧ t = { s with answers := s.answers ++ [decide (s.tx = .idle)] } ∧
        t.result = some (decide (s.tx = .idle))) ∧
    (s.inited = false → exec .ready s = .refused (.notInitialised "READY"))

/-- WAIT is READY repeated until RESULT = 1 (R131). It is the model's choice how (log 14): one READY a turn, and while the
answer is 0 WAIT stands at the head of the command sequence again, so that the HOST's next turn runs it. -/
def Obligations.WaitRepeatsReady : Prop :=
  ∀ s : State, s.cfg.wf = true → s.inited = true → s.hphase = .free →
    (s.tx = .idle → exec .wait s = .next { s with answers := s.answers ++ [true] } ∧ exec .ready s = exec .wait s) ∧
    (s.tx ≠ .idle → ∃ t, exec .wait s = .next t ∧ t.result = some false ∧
      t = { s with answers := s.answers ++ [false], script := .wait :: s.script } ∧
      fetch .host t = .run .wait { t with script := s.script })

/-- LEDW outside a borrowed range stores the colour to element a, writes no other byte, and needs no INIT; inside one, while
STATE = sending, it is a BorrowViolation (R132). -/
def Obligations.LedwStores : Prop :=
  ∀ (s : State) (a : LedIndex) (r g b : Byte), s.cfg.wf = true → s.hphase = .free → Memory.Wf s.ledmem →
    (¬(s.tx = .sending ∧ s.ledBase.toNat ≤ a.toNat ∧ a.toNat < s.ledBase.toNat + s.ledCount.toNat) →
      ∃ t, exec (.ledw a r g b) s = .next t ∧ ledRead t.ledmem a.toNat = r ++ g ++ b ∧
        memRead t.ledmem (3 * a.toNat) = r ∧ memRead t.ledmem (3 * a.toNat + 1) = g ∧
        memRead t.ledmem (3 * a.toNat + 2) = b ∧
        (∀ x, x < 3 * a.toNat ∨ 3 * a.toNat + 2 < x → memRead t.ledmem x = memRead s.ledmem x) ∧
        t = { s with ledmem := t.ledmem }) ∧
    (s.tx = .sending → s.ledBase.toNat ≤ a.toNat → a.toNat < s.ledBase.toNat + s.ledCount.toNat →
      exec (.ledw a r g b) s = .fault (.borrowViolation (.ledw a r g b)))

/-- The model's choice (log 9): an operation asked for where its guard is false is refused by name. -/
def Obligations.FalseGuardRefused : Prop :=
  ∀ s : State, s.cfg.wf = true →
    (s.halfPend = false → exec .evHalf s = .refused (.notEnabled "EV_HALF")) ∧
    (s.wrapPend = false → exec .evWrap s = .refused (.notEnabled "EV_WRAP")) ∧
    (s.engine = .ready ∨ s.genRun = false → exec .engXfer s = .refused (.notEnabled "ENG_XFER")) ∧
    (s.genRun = false → exec .genTick s = .refused (.notEnabled "GEN_TICK")) ∧
    (∀ h j, s.cfg.k ≤ j → exec (.encodeUnit h j) s = .refused (.slotOutOfRange j)) ∧
    (s.hphase ≠ .free →
      (s.inited = true → exec .ready s = .refused (.notEnabled "READY") ∧
        exec .wait s = .refused (.notEnabled "WAIT")) ∧
      (s.inited = false → exec .init s = .refused (.notEnabled "INIT")) ∧
      ∀ a r g b, exec (.ledw a r g b) s = .refused (.notEnabled "LEDW")) ∧
    ∀ base count, s.inited = true →
      (s.hphase = .waitClear ∨ s.hphase = .waitSend ∧ s.hcmd ≠ sendWord base count →
        exec (.send base count) s = .refused (.notEnabled "SEND")) ∧
      (s.hphase = .waitSend ∨ s.hphase = .waitClear ∧ s.hcmd ≠ clearWord base count →
        exec (.clear base count) s = .refused (.notEnabled "CLEAR"))

/-! ### Reset -/

/-- The reset values the spec gives, under every configuration (R41). -/
def Obligations.ResetValues : Prop :=
  ∀ c : Config, (State.resetWith c).cfg = c ∧ (State.resetWith c).tx = .idle ∧ (State.resetWith c).engine = .ready ∧
    (State.resetWith c).halfPend = false ∧ (State.resetWith c).wrapPend = false ∧ (State.resetWith c).err = 0b000#3 ∧
    (State.resetWith c).inited = false ∧ (State.resetWith c).genRun = false ∧ (State.resetWith c).active = false ∧
    (State.resetWith c).pin = false ∧ (State.resetWith c).out = [] ∧ (State.resetWith c).hphase = .free

/-- After power-on reset no agent but the HOST has an enabled step, whatever the unspecified values are (R230). That the HOST
has none either, its command sequence being empty (log 6), and that a turn of an agent with no enabled step passes and changes
nothing but the schedule (log 2), are the model's choices. -/
def Obligations.OnlyHostMovesAfterReset : Prop :=
  (∀ s : State, s.engine = .ready → s.halfPend = false → s.wrapPend = false → s.genRun = false →
    fetch .handler s = .pass ∧ fetch .engine s = .pass ∧ fetch .generator s = .pass) ∧
  ∀ c : Config, c.wf = true → ∃ later n, step (State.resetWith c) =
    .next { State.resetWith c with turns := later, turnCount := n }

/-- The machine's invariant holds after power-on reset: in every state with the values of R41 that it rests on, whatever the
unspecified registers hold in their ranges and whatever the LED space holds, under every legal configuration; so also with
the zeros the model takes for them (log 3), and in State.reset. -/
def Obligations.ResetMeetsInvariant : Prop :=
  (∀ s : State, s.cfg.wf = true → RegsInRange s → Memory.Wf s.ledmem → s.tx = .idle → s.engine = .ready →
    s.halfPend = false → s.wrapPend = false → s.inited = false → s.genRun = false → s.hphase = .free → Inv s) ∧
  (∀ c : Config, c.wf = true → Inv (State.resetWith c)) ∧ Inv State.reset

/-! ### The whole machine -/

/-- A step runs the instruction its agent fetches: the HOST's word with the line taken off its sequence, the word it holds
while it waits, WAIT and LEDW, the handler of the event vector, ENG_XFER at period level, GEN_TICK at tick level. The step
takes the turn off the schedule and does nothing else around exec. The model's choices in it: one step is one turn of the
schedule (log 2), the turn of a waiting HOST runs the word it holds even while the accept guard is false (log 10), and the
configuration says which of ENG_XFER and GEN_TICK is a turn (log 11). -/
def Obligations.StepRunsFetchedInstruction : Prop :=
  ∀ (s : State) (a : Agent) (later : List Agent), s.cfg.wf = true → s.turns = a :: later →
    (∀ w i rest, a = .host → s.hphase = .free → s.script = .word w :: rest → decodeCmd w = .ok i →
      step s = exec i { s with turns := later, script := rest }) ∧
    (∀ i, a = .host → s.hphase ≠ .free → decodeCmd s.hcmd = .ok i → step s = exec i { s with turns := later }) ∧
    (∀ rest, a = .host → s.hphase = .free → s.script = .wait :: rest →
      step s = exec .wait { s with turns := later, script := rest }) ∧
    (∀ x r g b rest, a = .host → s.hphase = .free → s.script = .ledw x r g b :: rest →
      step s = exec (.ledw x r g b) { s with turns := later, script := rest }) ∧
    (∀ i, a = .handler → decodeEvt (eventVector s) = .ok i → step s = exec i { s with turns := later }) ∧
    (a = .engine → s.cfg.level = .period → s.engine = .busy → s.genRun = true →
      step s = exec .engXfer { s with turns := later }) ∧
    (a = .generator → s.cfg.level = .tick → s.genRun = true → step s = exec .genTick { s with turns := later })

/-- Every step keeps the machine's invariant: registers in range, the LED space canonical, the control state and the events as
R38 says, the buffer made of the two symbols (all W0 while clearing), P ≤ LED_COUNT + D while sending, and a checked word at
the port (R37, R38, R145). -/
def Obligations.StepKeepsInvariant : Prop :=
  ∀ s t : State, Inv s → step s = .next t → Inv t

/-- Every operation keeps the LED space in canonical form, from every state that has it. -/
def Obligations.MemoryStaysCanonical : Prop :=
  ∀ (i : Instr) (s t : State), Memory.Wf s.ledmem → exec i s = .next t → Memory.Wf t.ledmem

/-- Slack entries hold W0 from INIT on (R58). -/
def Obligations.SlackStaysLogicalZero : Prop :=
  ∀ s t : State, Inv s → SlackOk s → step s = .next t → SlackOk t

/-- A buffer of W0 alone stays so at every step that neither starts in sending nor ends there, so from a CLEAR until the next
SEND is accepted (R37 c, R129 e). -/
def Obligations.BlankBufferStaysBlank : Prop :=
  ∀ s t : State, s.tx ≠ .sending → t.tx ≠ .sending → step s = .next t →
    (∀ v ∈ s.buf, v = s.cfg.w0) → ∀ v ∈ t.buf, v = t.cfg.w0

/-- STATE is never done between two steps (R145). -/
def Obligations.DoneNeverVisible : Prop :=
  ∀ s t : State, s.tx ≠ .done → step s = .next t → t.tx ≠ .done

/-- The transition table: an operation that changes STATE is one of its rows, and only the sub-steps ENG_START and ENG_STOP
change ENGINE without one (R150). -/
def Obligations.TransitionTable : Prop :=
  ∀ (i : Instr) (s t : State), ControlOk s → exec i s = .next t →
    legalTransition i s t = true ∧ (i ≠ .engStart → i ≠ .engStop → t.engine ≠ s.engine → t.tx ≠ s.tx)

/-- An ERR bit that is set stays set (R32, R201), and the configuration is no state: no step changes it (R13, R39). -/
def Obligations.ErrStickyConfigurationFixed : Prop :=
  ∀ s t : State, step s = .next t → t.cfg = s.cfg ∧ ∀ b, s.err.getLsbD b = true → t.err.getLsbD b = true

/-- INITED and GEN_RUN are set by INIT, both, and nothing clears them (R33). -/
def Obligations.InitedSetOnlyByInit : Prop :=
  ∀ (i : Instr) (s t : State), exec i s = .next t →
    (i = .init → t.inited = true ∧ t.genRun = true) ∧
    (i ≠ .init → t.inited = s.inited ∧ t.genRun = s.genRun)

/-- OUT grows by exactly one element per ENG_XFER, the entry at RDIDX, and by nothing else; GEN_TICK contains an ENG_XFER at the
first tick of a period with the engine running. DUTY is written with it and by nothing else (R26, R182). -/
def Obligations.OutGrowsOnlyByTransfers : Prop :=
  ∀ (i : Instr) (s t : State), exec i s = .next t →
    (i = .engXfer ∨ (i = .genTick ∧ s.tick = 0 ∧ s.engine = .busy) →
      ∃ v, s.buf[s.rdidx]? = some v ∧ t.out = s.out ++ [v] ∧ t.duty = v) ∧
    (¬(i = .engXfer ∨ (i = .genTick ∧ s.tick = 0 ∧ s.engine = .busy)) → t.out = s.out ∧ t.duty = s.duty)

/-- The Progress Counter falls only at the accept step of a SEND (R23, R37 d), and CLEAR, INIT, READY, WAIT, LEDW, the engine and
the generator do not write it. -/
def Obligations.ProgressFallsOnlyAtSend : Prop :=
  ∀ (i : Instr) (s t : State), totalUnits s < 2 ^ 16 → exec i s = .next t →
    (t.p.toNat < s.p.toNat → s.hphase = .waitSend ∧ s.tx = .idle ∧ s.engine = .ready ∧
      ∃ base count, i = .send base count) ∧
    (t.p ≠ s.p → i = .evHalf ∨ i = .evWrap ∨ (∃ h j, i = .encodeUnit h j) ∨ (∃ h, i = .encodeHalf h) ∨
      ∃ base count, i = .send base count)

/-- The LED space is written by CLEAR's presentation and by LEDW, and there only in the elements named; every byte elsewhere,
and every byte under every other operation, reads as before (R68, R215). -/
def Obligations.LedSpaceFrame : Prop :=
  ∀ (i : Instr) (s t : State) (x : Nat), exec i s = .next t →
    (∀ base count, i = .clear base count → s.hphase = .free →
      x < 3 * base.toNat ∨ 3 * (base.toNat + count.toNat) ≤ x → memRead t.ledmem x = memRead s.ledmem x) ∧
    (∀ base count, i = .clear base count → s.hphase ≠ .free → memRead t.ledmem x = memRead s.ledmem x) ∧
    (∀ a r g b, i = .ledw a r g b → x < 3 * a.toNat ∨ 3 * a.toNat + 2 < x →
      memRead t.ledmem x = memRead s.ledmem x) ∧
    ((∀ base count, i ≠ .clear base count) → (∀ a r g b, i ≠ .ledw a r g b) →
      memRead t.ledmem x = memRead s.ledmem x)

/-- While STATE is not idle the steps of the HOST, INIT apart, write no shared state: STATE, ENGINE, P, CLR_CNT, LED_BASE, LED_COUNT, BUF,
RDIDX, the flags and DUTY stay (R42). -/
def Obligations.CallerNeverWritesWhileBusy : Prop :=
  ∀ (i : Instr) (s t : State), (i.format = .cmd ∨ i.format = .pseudo) → i ≠ .init → s.tx ≠ .idle →
    exec i s = .next t → t = { s with
      ledmem := t.ledmem
      err := t.err
      faultLog := t.faultLog
      hphase := t.hphase
      hcmd := t.hcmd
      answers := t.answers
      script := t.script }

/-- A SEND in the eager schedule ends at event E = max(1, ceil((LED_COUNT + D) / K) − 1) and no earlier; then STATE is idle, the
engine stopped, P = LED_COUNT + D, and E × H pulses have been emitted (R147, R148). -/
def Obligations.SendLastsEHalves : Prop :=
  ∀ s : State, s.cfg.wf = true → RegsInRange s → TransmissionOk s → s.tx = .sending → s.engine = .busy →
    s.genRun = true → s.rdidx = 0 → s.halfPend = false → s.wrapPend = false →
    s.p.toNat = min (2 * s.cfg.k) (totalUnits s) →
    (∃ t, eagerHalves (endEvent s.cfg (totalUnits s)) s = .next t ∧ t.tx = .idle ∧ t.engine = .ready ∧
      t.p.toNat = totalUnits s ∧ t.out.length = s.out.length + endEvent s.cfg (totalUnits s) * s.cfg.half) ∧
    ∀ e, e < endEvent s.cfg (totalUnits s) → ∃ u, eagerHalves e s = .next u ∧ u.tx = .sending

/-- What a SEND puts on the pin, from its accept step to its last event in the eager schedule: E halves of H entries. Unit u of
the stream stands in half floor(u / K), slot u mod K; it is the data unit of LED u, then dead-time units, then what the slot
held before the SEND. Slack entries come out as W0, if they held it. With D ≥ K the slots emitted hold every LED (R53, R58,
R90, R105, R107, R148, R244). -/
def Obligations.SendStreamsTheFrame : Prop :=
  ∀ (s : State) (base : LedIndex) (count : Count), s.cfg.wf = true → RegsInRange s → s.inited = true → s.genRun = true →
    s.hphase = .waitSend → s.hcmd = sendWord base count → s.tx = .idle → s.engine = .ready →
    base.toNat + count.toNat ≤ ledmemSize → count.toNat + s.cfg.d < 2 ^ 16 →
    (∃ u t, exec (.send base count) s = .next u ∧ eagerHalves (endEvent s.cfg (count.toNat + s.cfg.d)) u = .next t ∧
      t.tx = .idle ∧ t.out.take s.out.length = s.out ∧
      t.out.length = s.out.length + endEvent s.cfg (count.toNat + s.cfg.d) * s.cfg.half ∧
      (∀ j k, j < endEvent s.cfg (count.toNat + s.cfg.d) * s.cfg.k → k < 24 →
        t.out[s.out.length + j / s.cfg.k * s.cfg.half + 24 * (j % s.cfg.k) + k]? =
          if j < count.toNat then (dataUnit s.cfg (ledRead s.ledmem (base.toNat + j)))[k]?
          else if j < count.toNat + s.cfg.d then some s.cfg.w0
          else s.buf[slotBase s.cfg (if j / s.cfg.k % 2 = 0 then .low else .high) (j % s.cfg.k) + k]?) ∧
      (SlackOk s → ∀ e i, e < endEvent s.cfg (count.toNat + s.cfg.d) → 24 * s.cfg.k ≤ i → i < s.cfg.half →
        t.out[s.out.length + e * s.cfg.half + i]? = some s.cfg.w0)) ∧
    (s.cfg.k ≤ s.cfg.d → count.toNat ≤ endEvent s.cfg (count.toNat + s.cfg.d) * s.cfg.k)

/-- A CLEAR in the eager schedule ends at event 2 × CLEAR_LIMIT after CLEAR_LIMIT × N pulses, every one W0, with STATE idle and
CLR_CNT = CLEAR_LIMIT; so does a CLEAR from its accept step on, and INIT's internal clear from INIT on (R149). -/
def Obligations.ClearEmitsWholeCycles : Prop :=
  (∀ s : State, s.cfg.wf = true → RegsInRange s → s.tx = .clearing → s.engine = .busy → s.genRun = true →
    s.rdidx = 0 → s.halfPend = false → s.wrapPend = false → s.clrCnt = 0 →
    s.buf = List.replicate s.cfg.n s.cfg.w0 → ClearsInCycles s s.out) ∧
  (∀ (s : State) (base : LedIndex) (count : Count), s.cfg.wf = true → s.inited = true → s.genRun = true →
    s.hphase = .waitClear → s.hcmd = clearWord base count → s.tx = .idle → s.engine = .ready →
    ∃ u, exec (.clear base count) s = .next u ∧ ClearsInCycles u s.out) ∧
  ∀ s : State, s.cfg.wf = true → s.inited = false → s.hphase = .free →
    ∃ u, exec .init s = .next u ∧ ClearsInCycles u s.out

/-- A running engine does not stall, and every transmission ends, in every fair schedule (R165): from a state that meets the
invariant, with the engine busy, some number of steps brings a further transfer or the end of the transmission, and some
number brings STATE to idle; unless the run stops before at a duty of the caller or the integrator. That the schedule is fair
to the transfer is R165's one assumption, and its form, rounds of turns, is the model's choice (log 2). -/
def Obligations.EveryTransmissionEnds : Prop :=
  ∀ s : State, Inv s → s.engine = .busy →
    (∃ n, DutyStop (steps n s) ∨ ∃ t, steps n s = .next t ∧ (t.tx = .idle ∨ s.out.length < t.out.length)) ∧
    ∃ n, DutyStop (steps n s) ∨ ∃ t, steps n s = .next t ∧ t.tx = .idle ∧ t.engine = .ready
end

