-- ==== Sys2Proof/Laws/State.lean ====
section
/-! SUPPORT. Beside State: for each update of registers, what every field of the state reads after it. Each holds by
unfolding the update once, so that no later proof unfolds it. -/

namespace Sys2Proof.Machine

/-! ### setTx -/

@[simp] theorem setTx_cfg (t : TxState) (s : State) : (setTx t s).cfg = s.cfg := rfl
@[simp] theorem setTx_tx (t : TxState) (s : State) : (setTx t s).tx = t := rfl
@[simp] theorem setTx_engine (t : TxState) (s : State) : (setTx t s).engine = s.engine := rfl
@[simp] theorem setTx_p (t : TxState) (s : State) : (setTx t s).p = s.p := rfl
@[simp] theorem setTx_clrCnt (t : TxState) (s : State) : (setTx t s).clrCnt = s.clrCnt := rfl
@[simp] theorem setTx_ledBase (t : TxState) (s : State) : (setTx t s).ledBase = s.ledBase := rfl
@[simp] theorem setTx_ledCount (t : TxState) (s : State) : (setTx t s).ledCount = s.ledCount := rfl
@[simp] theorem setTx_duty (t : TxState) (s : State) : (setTx t s).duty = s.duty := rfl
@[simp] theorem setTx_rdidx (t : TxState) (s : State) : (setTx t s).rdidx = s.rdidx := rfl
@[simp] theorem setTx_halfPend (t : TxState) (s : State) : (setTx t s).halfPend = s.halfPend := rfl
@[simp] theorem setTx_wrapPend (t : TxState) (s : State) : (setTx t s).wrapPend = s.wrapPend := rfl
@[simp] theorem setTx_buf (t : TxState) (s : State) : (setTx t s).buf = s.buf := rfl
@[simp] theorem setTx_err (t : TxState) (s : State) : (setTx t s).err = s.err := rfl
@[simp] theorem setTx_inited (t : TxState) (s : State) : (setTx t s).inited = s.inited := rfl
@[simp] theorem setTx_genRun (t : TxState) (s : State) : (setTx t s).genRun = s.genRun := rfl
@[simp] theorem setTx_tick (t : TxState) (s : State) : (setTx t s).tick = s.tick := rfl
@[simp] theorem setTx_pin (t : TxState) (s : State) : (setTx t s).pin = s.pin := rfl
@[simp] theorem setTx_active (t : TxState) (s : State) : (setTx t s).active = s.active := rfl
@[simp] theorem setTx_ledmem (t : TxState) (s : State) : (setTx t s).ledmem = s.ledmem := rfl
@[simp] theorem setTx_out (t : TxState) (s : State) : (setTx t s).out = s.out := rfl
@[simp] theorem setTx_hphase (t : TxState) (s : State) : (setTx t s).hphase = s.hphase := rfl
@[simp] theorem setTx_hcmd (t : TxState) (s : State) : (setTx t s).hcmd = s.hcmd := rfl
@[simp] theorem setTx_answers (t : TxState) (s : State) : (setTx t s).answers = s.answers := rfl
@[simp] theorem setTx_faultLog (t : TxState) (s : State) : (setTx t s).faultLog = s.faultLog := rfl
@[simp] theorem setTx_wave (t : TxState) (s : State) : (setTx t s).wave = s.wave := rfl
@[simp] theorem setTx_script (t : TxState) (s : State) : (setTx t s).script = s.script := rfl
@[simp] theorem setTx_turns (t : TxState) (s : State) : (setTx t s).turns = s.turns := rfl
@[simp] theorem setTx_turnCount (t : TxState) (s : State) : (setTx t s).turnCount = s.turnCount := rfl

/-! ### freePort -/

@[simp] theorem freePort_cfg (s : State) : (freePort s).cfg = s.cfg := rfl
@[simp] theorem freePort_tx (s : State) : (freePort s).tx = s.tx := rfl
@[simp] theorem freePort_engine (s : State) : (freePort s).engine = s.engine := rfl
@[simp] theorem freePort_p (s : State) : (freePort s).p = s.p := rfl
@[simp] theorem freePort_clrCnt (s : State) : (freePort s).clrCnt = s.clrCnt := rfl
@[simp] theorem freePort_ledBase (s : State) : (freePort s).ledBase = s.ledBase := rfl
@[simp] theorem freePort_ledCount (s : State) : (freePort s).ledCount = s.ledCount := rfl
@[simp] theorem freePort_duty (s : State) : (freePort s).duty = s.duty := rfl
@[simp] theorem freePort_rdidx (s : State) : (freePort s).rdidx = s.rdidx := rfl
@[simp] theorem freePort_halfPend (s : State) : (freePort s).halfPend = s.halfPend := rfl
@[simp] theorem freePort_wrapPend (s : State) : (freePort s).wrapPend = s.wrapPend := rfl
@[simp] theorem freePort_buf (s : State) : (freePort s).buf = s.buf := rfl
@[simp] theorem freePort_err (s : State) : (freePort s).err = s.err := rfl
@[simp] theorem freePort_inited (s : State) : (freePort s).inited = s.inited := rfl
@[simp] theorem freePort_genRun (s : State) : (freePort s).genRun = s.genRun := rfl
@[simp] theorem freePort_tick (s : State) : (freePort s).tick = s.tick := rfl
@[simp] theorem freePort_pin (s : State) : (freePort s).pin = s.pin := rfl
@[simp] theorem freePort_active (s : State) : (freePort s).active = s.active := rfl
@[simp] theorem freePort_ledmem (s : State) : (freePort s).ledmem = s.ledmem := rfl
@[simp] theorem freePort_out (s : State) : (freePort s).out = s.out := rfl
@[simp] theorem freePort_hphase (s : State) : (freePort s).hphase = .free := rfl
@[simp] theorem freePort_hcmd (s : State) : (freePort s).hcmd = s.hcmd := rfl
@[simp] theorem freePort_answers (s : State) : (freePort s).answers = s.answers := rfl
@[simp] theorem freePort_faultLog (s : State) : (freePort s).faultLog = s.faultLog := rfl
@[simp] theorem freePort_wave (s : State) : (freePort s).wave = s.wave := rfl
@[simp] theorem freePort_script (s : State) : (freePort s).script = s.script := rfl
@[simp] theorem freePort_turns (s : State) : (freePort s).turns = s.turns := rfl
@[simp] theorem freePort_turnCount (s : State) : (freePort s).turnCount = s.turnCount := rfl

/-! ### holdWord -/

@[simp] theorem holdWord_cfg (w : CmdWord) (ph : HPhase) (s : State) : (holdWord w ph s).cfg = s.cfg := rfl
@[simp] theorem holdWord_tx (w : CmdWord) (ph : HPhase) (s : State) : (holdWord w ph s).tx = s.tx := rfl
@[simp] theorem holdWord_engine (w : CmdWord) (ph : HPhase) (s : State) : (holdWord w ph s).engine = s.engine := rfl
@[simp] theorem holdWord_p (w : CmdWord) (ph : HPhase) (s : State) : (holdWord w ph s).p = s.p := rfl
@[simp] theorem holdWord_clrCnt (w : CmdWord) (ph : HPhase) (s : State) : (holdWord w ph s).clrCnt = s.clrCnt := rfl
@[simp] theorem holdWord_ledBase (w : CmdWord) (ph : HPhase) (s : State) : (holdWord w ph s).ledBase = s.ledBase := rfl
@[simp] theorem holdWord_ledCount (w : CmdWord) (ph : HPhase) (s : State) : (holdWord w ph s).ledCount = s.ledCount := rfl
@[simp] theorem holdWord_duty (w : CmdWord) (ph : HPhase) (s : State) : (holdWord w ph s).duty = s.duty := rfl
@[simp] theorem holdWord_rdidx (w : CmdWord) (ph : HPhase) (s : State) : (holdWord w ph s).rdidx = s.rdidx := rfl
@[simp] theorem holdWord_halfPend (w : CmdWord) (ph : HPhase) (s : State) : (holdWord w ph s).halfPend = s.halfPend := rfl
@[simp] theorem holdWord_wrapPend (w : CmdWord) (ph : HPhase) (s : State) : (holdWord w ph s).wrapPend = s.wrapPend := rfl
@[simp] theorem holdWord_buf (w : CmdWord) (ph : HPhase) (s : State) : (holdWord w ph s).buf = s.buf := rfl
@[simp] theorem holdWord_err (w : CmdWord) (ph : HPhase) (s : State) : (holdWord w ph s).err = s.err := rfl
@[simp] theorem holdWord_inited (w : CmdWord) (ph : HPhase) (s : State) : (holdWord w ph s).inited = s.inited := rfl
@[simp] theorem holdWord_genRun (w : CmdWord) (ph : HPhase) (s : State) : (holdWord w ph s).genRun = s.genRun := rfl
@[simp] theorem holdWord_tick (w : CmdWord) (ph : HPhase) (s : State) : (holdWord w ph s).tick = s.tick := rfl
@[simp] theorem holdWord_pin (w : CmdWord) (ph : HPhase) (s : State) : (holdWord w ph s).pin = s.pin := rfl
@[simp] theorem holdWord_active (w : CmdWord) (ph : HPhase) (s : State) : (holdWord w ph s).active = s.active := rfl
@[simp] theorem holdWord_ledmem (w : CmdWord) (ph : HPhase) (s : State) : (holdWord w ph s).ledmem = s.ledmem := rfl
@[simp] theorem holdWord_out (w : CmdWord) (ph : HPhase) (s : State) : (holdWord w ph s).out = s.out := rfl
@[simp] theorem holdWord_hphase (w : CmdWord) (ph : HPhase) (s : State) : (holdWord w ph s).hphase = ph := rfl
@[simp] theorem holdWord_hcmd (w : CmdWord) (ph : HPhase) (s : State) : (holdWord w ph s).hcmd = w := rfl
@[simp] theorem holdWord_answers (w : CmdWord) (ph : HPhase) (s : State) : (holdWord w ph s).answers = s.answers := rfl
@[simp] theorem holdWord_faultLog (w : CmdWord) (ph : HPhase) (s : State) : (holdWord w ph s).faultLog = s.faultLog := rfl
@[simp] theorem holdWord_wave (w : CmdWord) (ph : HPhase) (s : State) : (holdWord w ph s).wave = s.wave := rfl
@[simp] theorem holdWord_script (w : CmdWord) (ph : HPhase) (s : State) : (holdWord w ph s).script = s.script := rfl
@[simp] theorem holdWord_turns (w : CmdWord) (ph : HPhase) (s : State) : (holdWord w ph s).turns = s.turns := rfl
@[simp] theorem holdWord_turnCount (w : CmdWord) (ph : HPhase) (s : State) : (holdWord w ph s).turnCount = s.turnCount := rfl

/-! ### ackHalf -/

@[simp] theorem ackHalf_cfg (s : State) : (ackHalf s).cfg = s.cfg := rfl
@[simp] theorem ackHalf_tx (s : State) : (ackHalf s).tx = s.tx := rfl
@[simp] theorem ackHalf_engine (s : State) : (ackHalf s).engine = s.engine := rfl
@[simp] theorem ackHalf_p (s : State) : (ackHalf s).p = s.p := rfl
@[simp] theorem ackHalf_clrCnt (s : State) : (ackHalf s).clrCnt = s.clrCnt := rfl
@[simp] theorem ackHalf_ledBase (s : State) : (ackHalf s).ledBase = s.ledBase := rfl
@[simp] theorem ackHalf_ledCount (s : State) : (ackHalf s).ledCount = s.ledCount := rfl
@[simp] theorem ackHalf_duty (s : State) : (ackHalf s).duty = s.duty := rfl
@[simp] theorem ackHalf_rdidx (s : State) : (ackHalf s).rdidx = s.rdidx := rfl
@[simp] theorem ackHalf_halfPend (s : State) : (ackHalf s).halfPend = false := rfl
@[simp] theorem ackHalf_wrapPend (s : State) : (ackHalf s).wrapPend = s.wrapPend := rfl
@[simp] theorem ackHalf_buf (s : State) : (ackHalf s).buf = s.buf := rfl
@[simp] theorem ackHalf_err (s : State) : (ackHalf s).err = s.err := rfl
@[simp] theorem ackHalf_inited (s : State) : (ackHalf s).inited = s.inited := rfl
@[simp] theorem ackHalf_genRun (s : State) : (ackHalf s).genRun = s.genRun := rfl
@[simp] theorem ackHalf_tick (s : State) : (ackHalf s).tick = s.tick := rfl
@[simp] theorem ackHalf_pin (s : State) : (ackHalf s).pin = s.pin := rfl
@[simp] theorem ackHalf_active (s : State) : (ackHalf s).active = s.active := rfl
@[simp] theorem ackHalf_ledmem (s : State) : (ackHalf s).ledmem = s.ledmem := rfl
@[simp] theorem ackHalf_out (s : State) : (ackHalf s).out = s.out := rfl
@[simp] theorem ackHalf_hphase (s : State) : (ackHalf s).hphase = s.hphase := rfl
@[simp] theorem ackHalf_hcmd (s : State) : (ackHalf s).hcmd = s.hcmd := rfl
@[simp] theorem ackHalf_answers (s : State) : (ackHalf s).answers = s.answers := rfl
@[simp] theorem ackHalf_faultLog (s : State) : (ackHalf s).faultLog = s.faultLog := rfl
@[simp] theorem ackHalf_wave (s : State) : (ackHalf s).wave = s.wave := rfl
@[simp] theorem ackHalf_script (s : State) : (ackHalf s).script = s.script := rfl
@[simp] theorem ackHalf_turns (s : State) : (ackHalf s).turns = s.turns := rfl
@[simp] theorem ackHalf_turnCount (s : State) : (ackHalf s).turnCount = s.turnCount := rfl

/-! ### ackWrap -/

@[simp] theorem ackWrap_cfg (s : State) : (ackWrap s).cfg = s.cfg := rfl
@[simp] theorem ackWrap_tx (s : State) : (ackWrap s).tx = s.tx := rfl
@[simp] theorem ackWrap_engine (s : State) : (ackWrap s).engine = s.engine := rfl
@[simp] theorem ackWrap_p (s : State) : (ackWrap s).p = s.p := rfl
@[simp] theorem ackWrap_clrCnt (s : State) : (ackWrap s).clrCnt = s.clrCnt := rfl
@[simp] theorem ackWrap_ledBase (s : State) : (ackWrap s).ledBase = s.ledBase := rfl
@[simp] theorem ackWrap_ledCount (s : State) : (ackWrap s).ledCount = s.ledCount := rfl
@[simp] theorem ackWrap_duty (s : State) : (ackWrap s).duty = s.duty := rfl
@[simp] theorem ackWrap_rdidx (s : State) : (ackWrap s).rdidx = s.rdidx := rfl
@[simp] theorem ackWrap_halfPend (s : State) : (ackWrap s).halfPend = s.halfPend := rfl
@[simp] theorem ackWrap_wrapPend (s : State) : (ackWrap s).wrapPend = false := rfl
@[simp] theorem ackWrap_buf (s : State) : (ackWrap s).buf = s.buf := rfl
@[simp] theorem ackWrap_err (s : State) : (ackWrap s).err = s.err := rfl
@[simp] theorem ackWrap_inited (s : State) : (ackWrap s).inited = s.inited := rfl
@[simp] theorem ackWrap_genRun (s : State) : (ackWrap s).genRun = s.genRun := rfl
@[simp] theorem ackWrap_tick (s : State) : (ackWrap s).tick = s.tick := rfl
@[simp] theorem ackWrap_pin (s : State) : (ackWrap s).pin = s.pin := rfl
@[simp] theorem ackWrap_active (s : State) : (ackWrap s).active = s.active := rfl
@[simp] theorem ackWrap_ledmem (s : State) : (ackWrap s).ledmem = s.ledmem := rfl
@[simp] theorem ackWrap_out (s : State) : (ackWrap s).out = s.out := rfl
@[simp] theorem ackWrap_hphase (s : State) : (ackWrap s).hphase = s.hphase := rfl
@[simp] theorem ackWrap_hcmd (s : State) : (ackWrap s).hcmd = s.hcmd := rfl
@[simp] theorem ackWrap_answers (s : State) : (ackWrap s).answers = s.answers := rfl
@[simp] theorem ackWrap_faultLog (s : State) : (ackWrap s).faultLog = s.faultLog := rfl
@[simp] theorem ackWrap_wave (s : State) : (ackWrap s).wave = s.wave := rfl
@[simp] theorem ackWrap_script (s : State) : (ackWrap s).script = s.script := rfl
@[simp] theorem ackWrap_turns (s : State) : (ackWrap s).turns = s.turns := rfl
@[simp] theorem ackWrap_turnCount (s : State) : (ackWrap s).turnCount = s.turnCount := rfl

/-! ### setLedmem -/

@[simp] theorem setLedmem_cfg (m : Memory) (s : State) : (setLedmem m s).cfg = s.cfg := rfl
@[simp] theorem setLedmem_tx (m : Memory) (s : State) : (setLedmem m s).tx = s.tx := rfl
@[simp] theorem setLedmem_engine (m : Memory) (s : State) : (setLedmem m s).engine = s.engine := rfl
@[simp] theorem setLedmem_p (m : Memory) (s : State) : (setLedmem m s).p = s.p := rfl
@[simp] theorem setLedmem_clrCnt (m : Memory) (s : State) : (setLedmem m s).clrCnt = s.clrCnt := rfl
@[simp] theorem setLedmem_ledBase (m : Memory) (s : State) : (setLedmem m s).ledBase = s.ledBase := rfl
@[simp] theorem setLedmem_ledCount (m : Memory) (s : State) : (setLedmem m s).ledCount = s.ledCount := rfl
@[simp] theorem setLedmem_duty (m : Memory) (s : State) : (setLedmem m s).duty = s.duty := rfl
@[simp] theorem setLedmem_rdidx (m : Memory) (s : State) : (setLedmem m s).rdidx = s.rdidx := rfl
@[simp] theorem setLedmem_halfPend (m : Memory) (s : State) : (setLedmem m s).halfPend = s.halfPend := rfl
@[simp] theorem setLedmem_wrapPend (m : Memory) (s : State) : (setLedmem m s).wrapPend = s.wrapPend := rfl
@[simp] theorem setLedmem_buf (m : Memory) (s : State) : (setLedmem m s).buf = s.buf := rfl
@[simp] theorem setLedmem_err (m : Memory) (s : State) : (setLedmem m s).err = s.err := rfl
@[simp] theorem setLedmem_inited (m : Memory) (s : State) : (setLedmem m s).inited = s.inited := rfl
@[simp] theorem setLedmem_genRun (m : Memory) (s : State) : (setLedmem m s).genRun = s.genRun := rfl
@[simp] theorem setLedmem_tick (m : Memory) (s : State) : (setLedmem m s).tick = s.tick := rfl
@[simp] theorem setLedmem_pin (m : Memory) (s : State) : (setLedmem m s).pin = s.pin := rfl
@[simp] theorem setLedmem_active (m : Memory) (s : State) : (setLedmem m s).active = s.active := rfl
@[simp] theorem setLedmem_ledmem (m : Memory) (s : State) : (setLedmem m s).ledmem = m := rfl
@[simp] theorem setLedmem_out (m : Memory) (s : State) : (setLedmem m s).out = s.out := rfl
@[simp] theorem setLedmem_hphase (m : Memory) (s : State) : (setLedmem m s).hphase = s.hphase := rfl
@[simp] theorem setLedmem_hcmd (m : Memory) (s : State) : (setLedmem m s).hcmd = s.hcmd := rfl
@[simp] theorem setLedmem_answers (m : Memory) (s : State) : (setLedmem m s).answers = s.answers := rfl
@[simp] theorem setLedmem_faultLog (m : Memory) (s : State) : (setLedmem m s).faultLog = s.faultLog := rfl
@[simp] theorem setLedmem_wave (m : Memory) (s : State) : (setLedmem m s).wave = s.wave := rfl
@[simp] theorem setLedmem_script (m : Memory) (s : State) : (setLedmem m s).script = s.script := rfl
@[simp] theorem setLedmem_turns (m : Memory) (s : State) : (setLedmem m s).turns = s.turns := rfl
@[simp] theorem setLedmem_turnCount (m : Memory) (s : State) : (setLedmem m s).turnCount = s.turnCount := rfl

/-! ### answer -/

@[simp] theorem answer_cfg (b : Bool) (s : State) : (answer b s).cfg = s.cfg := rfl
@[simp] theorem answer_tx (b : Bool) (s : State) : (answer b s).tx = s.tx := rfl
@[simp] theorem answer_engine (b : Bool) (s : State) : (answer b s).engine = s.engine := rfl
@[simp] theorem answer_p (b : Bool) (s : State) : (answer b s).p = s.p := rfl
@[simp] theorem answer_clrCnt (b : Bool) (s : State) : (answer b s).clrCnt = s.clrCnt := rfl
@[simp] theorem answer_ledBase (b : Bool) (s : State) : (answer b s).ledBase = s.ledBase := rfl
@[simp] theorem answer_ledCount (b : Bool) (s : State) : (answer b s).ledCount = s.ledCount := rfl
@[simp] theorem answer_duty (b : Bool) (s : State) : (answer b s).duty = s.duty := rfl
@[simp] theorem answer_rdidx (b : Bool) (s : State) : (answer b s).rdidx = s.rdidx := rfl
@[simp] theorem answer_halfPend (b : Bool) (s : State) : (answer b s).halfPend = s.halfPend := rfl
@[simp] theorem answer_wrapPend (b : Bool) (s : State) : (answer b s).wrapPend = s.wrapPend := rfl
@[simp] theorem answer_buf (b : Bool) (s : State) : (answer b s).buf = s.buf := rfl
@[simp] theorem answer_err (b : Bool) (s : State) : (answer b s).err = s.err := rfl
@[simp] theorem answer_inited (b : Bool) (s : State) : (answer b s).inited = s.inited := rfl
@[simp] theorem answer_genRun (b : Bool) (s : State) : (answer b s).genRun = s.genRun := rfl
@[simp] theorem answer_tick (b : Bool) (s : State) : (answer b s).tick = s.tick := rfl
@[simp] theorem answer_pin (b : Bool) (s : State) : (answer b s).pin = s.pin := rfl
@[simp] theorem answer_active (b : Bool) (s : State) : (answer b s).active = s.active := rfl
@[simp] theorem answer_ledmem (b : Bool) (s : State) : (answer b s).ledmem = s.ledmem := rfl
@[simp] theorem answer_out (b : Bool) (s : State) : (answer b s).out = s.out := rfl
@[simp] theorem answer_hphase (b : Bool) (s : State) : (answer b s).hphase = s.hphase := rfl
@[simp] theorem answer_hcmd (b : Bool) (s : State) : (answer b s).hcmd = s.hcmd := rfl
@[simp] theorem answer_answers (b : Bool) (s : State) : (answer b s).answers = s.answers ++ [b] := rfl
@[simp] theorem answer_faultLog (b : Bool) (s : State) : (answer b s).faultLog = s.faultLog := rfl
@[simp] theorem answer_wave (b : Bool) (s : State) : (answer b s).wave = s.wave := rfl
@[simp] theorem answer_script (b : Bool) (s : State) : (answer b s).script = s.script := rfl
@[simp] theorem answer_turns (b : Bool) (s : State) : (answer b s).turns = s.turns := rfl
@[simp] theorem answer_turnCount (b : Bool) (s : State) : (answer b s).turnCount = s.turnCount := rfl

/-! ### emit -/

@[simp] theorem emit_cfg (v : Val) (s : State) : (emit v s).cfg = s.cfg := rfl
@[simp] theorem emit_tx (v : Val) (s : State) : (emit v s).tx = s.tx := rfl
@[simp] theorem emit_engine (v : Val) (s : State) : (emit v s).engine = s.engine := rfl
@[simp] theorem emit_p (v : Val) (s : State) : (emit v s).p = s.p := rfl
@[simp] theorem emit_clrCnt (v : Val) (s : State) : (emit v s).clrCnt = s.clrCnt := rfl
@[simp] theorem emit_ledBase (v : Val) (s : State) : (emit v s).ledBase = s.ledBase := rfl
@[simp] theorem emit_ledCount (v : Val) (s : State) : (emit v s).ledCount = s.ledCount := rfl
@[simp] theorem emit_duty (v : Val) (s : State) : (emit v s).duty = s.duty := rfl
@[simp] theorem emit_rdidx (v : Val) (s : State) : (emit v s).rdidx = s.rdidx := rfl
@[simp] theorem emit_halfPend (v : Val) (s : State) : (emit v s).halfPend = s.halfPend := rfl
@[simp] theorem emit_wrapPend (v : Val) (s : State) : (emit v s).wrapPend = s.wrapPend := rfl
@[simp] theorem emit_buf (v : Val) (s : State) : (emit v s).buf = s.buf := rfl
@[simp] theorem emit_err (v : Val) (s : State) : (emit v s).err = s.err := rfl
@[simp] theorem emit_inited (v : Val) (s : State) : (emit v s).inited = s.inited := rfl
@[simp] theorem emit_genRun (v : Val) (s : State) : (emit v s).genRun = s.genRun := rfl
@[simp] theorem emit_tick (v : Val) (s : State) : (emit v s).tick = s.tick := rfl
@[simp] theorem emit_pin (v : Val) (s : State) : (emit v s).pin = s.pin := rfl
@[simp] theorem emit_active (v : Val) (s : State) : (emit v s).active = s.active := rfl
@[simp] theorem emit_ledmem (v : Val) (s : State) : (emit v s).ledmem = s.ledmem := rfl
@[simp] theorem emit_out (v : Val) (s : State) : (emit v s).out = s.out ++ [v] := rfl
@[simp] theorem emit_hphase (v : Val) (s : State) : (emit v s).hphase = s.hphase := rfl
@[simp] theorem emit_hcmd (v : Val) (s : State) : (emit v s).hcmd = s.hcmd := rfl
@[simp] theorem emit_answers (v : Val) (s : State) : (emit v s).answers = s.answers := rfl
@[simp] theorem emit_faultLog (v : Val) (s : State) : (emit v s).faultLog = s.faultLog := rfl
@[simp] theorem emit_wave (v : Val) (s : State) : (emit v s).wave = s.wave := rfl
@[simp] theorem emit_script (v : Val) (s : State) : (emit v s).script = s.script := rfl
@[simp] theorem emit_turns (v : Val) (s : State) : (emit v s).turns = s.turns := rfl
@[simp] theorem emit_turnCount (v : Val) (s : State) : (emit v s).turnCount = s.turnCount := rfl

/-! ### storeReference -/

@[simp] theorem storeReference_cfg (base : LedIndex) (count : Count) (s : State) : (storeReference base count s).cfg = s.cfg := rfl
@[simp] theorem storeReference_tx (base : LedIndex) (count : Count) (s : State) : (storeReference base count s).tx = s.tx := rfl
@[simp] theorem storeReference_engine (base : LedIndex) (count : Count) (s : State) : (storeReference base count s).engine = s.engine := rfl
@[simp] theorem storeReference_p (base : LedIndex) (count : Count) (s : State) : (storeReference base count s).p = 0 := rfl
@[simp] theorem storeReference_clrCnt (base : LedIndex) (count : Count) (s : State) : (storeReference base count s).clrCnt = s.clrCnt := rfl
@[simp] theorem storeReference_ledBase (base : LedIndex) (count : Count) (s : State) : (storeReference base count s).ledBase = base := rfl
@[simp] theorem storeReference_ledCount (base : LedIndex) (count : Count) (s : State) : (storeReference base count s).ledCount = count := rfl
@[simp] theorem storeReference_duty (base : LedIndex) (count : Count) (s : State) : (storeReference base count s).duty = s.duty := rfl
@[simp] theorem storeReference_rdidx (base : LedIndex) (count : Count) (s : State) : (storeReference base count s).rdidx = s.rdidx := rfl
@[simp] theorem storeReference_halfPend (base : LedIndex) (count : Count) (s : State) : (storeReference base count s).halfPend = s.halfPend := rfl
@[simp] theorem storeReference_wrapPend (base : LedIndex) (count : Count) (s : State) : (storeReference base count s).wrapPend = s.wrapPend := rfl
@[simp] theorem storeReference_buf (base : LedIndex) (count : Count) (s : State) : (storeReference base count s).buf = s.buf := rfl
@[simp] theorem storeReference_err (base : LedIndex) (count : Count) (s : State) : (storeReference base count s).err = s.err := rfl
@[simp] theorem storeReference_inited (base : LedIndex) (count : Count) (s : State) : (storeReference base count s).inited = s.inited := rfl
@[simp] theorem storeReference_genRun (base : LedIndex) (count : Count) (s : State) : (storeReference base count s).genRun = s.genRun := rfl
@[simp] theorem storeReference_tick (base : LedIndex) (count : Count) (s : State) : (storeReference base count s).tick = s.tick := rfl
@[simp] theorem storeReference_pin (base : LedIndex) (count : Count) (s : State) : (storeReference base count s).pin = s.pin := rfl
@[simp] theorem storeReference_active (base : LedIndex) (count : Count) (s : State) : (storeReference base count s).active = s.active := rfl
@[simp] theorem storeReference_ledmem (base : LedIndex) (count : Count) (s : State) : (storeReference base count s).ledmem = s.ledmem := rfl
@[simp] theorem storeReference_out (base : LedIndex) (count : Count) (s : State) : (storeReference base count s).out = s.out := rfl
@[simp] theorem storeReference_hphase (base : LedIndex) (count : Count) (s : State) : (storeReference base count s).hphase = s.hphase := rfl
@[simp] theorem storeReference_hcmd (base : LedIndex) (count : Count) (s : State) : (storeReference base count s).hcmd = s.hcmd := rfl
@[simp] theorem storeReference_answers (base : LedIndex) (count : Count) (s : State) : (storeReference base count s).answers = s.answers := rfl
@[simp] theorem storeReference_faultLog (base : LedIndex) (count : Count) (s : State) : (storeReference base count s).faultLog = s.faultLog := rfl
@[simp] theorem storeReference_wave (base : LedIndex) (count : Count) (s : State) : (storeReference base count s).wave = s.wave := rfl
@[simp] theorem storeReference_script (base : LedIndex) (count : Count) (s : State) : (storeReference base count s).script = s.script := rfl
@[simp] theorem storeReference_turns (base : LedIndex) (count : Count) (s : State) : (storeReference base count s).turns = s.turns := rfl
@[simp] theorem storeReference_turnCount (base : LedIndex) (count : Count) (s : State) : (storeReference base count s).turnCount = s.turnCount := rfl

/-! ### fillBuffer -/

@[simp] theorem fillBuffer_cfg (s : State) : (fillBuffer s).cfg = s.cfg := rfl
@[simp] theorem fillBuffer_tx (s : State) : (fillBuffer s).tx = s.tx := rfl
@[simp] theorem fillBuffer_engine (s : State) : (fillBuffer s).engine = s.engine := rfl
@[simp] theorem fillBuffer_p (s : State) : (fillBuffer s).p = s.p := rfl
@[simp] theorem fillBuffer_clrCnt (s : State) : (fillBuffer s).clrCnt = 0 := rfl
@[simp] theorem fillBuffer_ledBase (s : State) : (fillBuffer s).ledBase = s.ledBase := rfl
@[simp] theorem fillBuffer_ledCount (s : State) : (fillBuffer s).ledCount = s.ledCount := rfl
@[simp] theorem fillBuffer_duty (s : State) : (fillBuffer s).duty = s.duty := rfl
@[simp] theorem fillBuffer_rdidx (s : State) : (fillBuffer s).rdidx = s.rdidx := rfl
@[simp] theorem fillBuffer_halfPend (s : State) : (fillBuffer s).halfPend = s.halfPend := rfl
@[simp] theorem fillBuffer_wrapPend (s : State) : (fillBuffer s).wrapPend = s.wrapPend := rfl
@[simp] theorem fillBuffer_buf (s : State) : (fillBuffer s).buf = List.replicate s.cfg.n s.cfg.w0 := rfl
@[simp] theorem fillBuffer_err (s : State) : (fillBuffer s).err = s.err := rfl
@[simp] theorem fillBuffer_inited (s : State) : (fillBuffer s).inited = s.inited := rfl
@[simp] theorem fillBuffer_genRun (s : State) : (fillBuffer s).genRun = s.genRun := rfl
@[simp] theorem fillBuffer_tick (s : State) : (fillBuffer s).tick = s.tick := rfl
@[simp] theorem fillBuffer_pin (s : State) : (fillBuffer s).pin = s.pin := rfl
@[simp] theorem fillBuffer_active (s : State) : (fillBuffer s).active = s.active := rfl
@[simp] theorem fillBuffer_ledmem (s : State) : (fillBuffer s).ledmem = s.ledmem := rfl
@[simp] theorem fillBuffer_out (s : State) : (fillBuffer s).out = s.out := rfl
@[simp] theorem fillBuffer_hphase (s : State) : (fillBuffer s).hphase = s.hphase := rfl
@[simp] theorem fillBuffer_hcmd (s : State) : (fillBuffer s).hcmd = s.hcmd := rfl
@[simp] theorem fillBuffer_answers (s : State) : (fillBuffer s).answers = s.answers := rfl
@[simp] theorem fillBuffer_faultLog (s : State) : (fillBuffer s).faultLog = s.faultLog := rfl
@[simp] theorem fillBuffer_wave (s : State) : (fillBuffer s).wave = s.wave := rfl
@[simp] theorem fillBuffer_script (s : State) : (fillBuffer s).script = s.script := rfl
@[simp] theorem fillBuffer_turns (s : State) : (fillBuffer s).turns = s.turns := rfl
@[simp] theorem fillBuffer_turnCount (s : State) : (fillBuffer s).turnCount = s.turnCount := rfl

/-! ### raiseCoded -/

@[simp] theorem raiseCoded_cfg (f : CodedFault) (w : CmdWord) (s : State) : (raiseCoded f w s).cfg = s.cfg := rfl
@[simp] theorem raiseCoded_tx (f : CodedFault) (w : CmdWord) (s : State) : (raiseCoded f w s).tx = s.tx := rfl
@[simp] theorem raiseCoded_engine (f : CodedFault) (w : CmdWord) (s : State) : (raiseCoded f w s).engine = s.engine := rfl
@[simp] theorem raiseCoded_p (f : CodedFault) (w : CmdWord) (s : State) : (raiseCoded f w s).p = s.p := rfl
@[simp] theorem raiseCoded_clrCnt (f : CodedFault) (w : CmdWord) (s : State) : (raiseCoded f w s).clrCnt = s.clrCnt := rfl
@[simp] theorem raiseCoded_ledBase (f : CodedFault) (w : CmdWord) (s : State) : (raiseCoded f w s).ledBase = s.ledBase := rfl
@[simp] theorem raiseCoded_ledCount (f : CodedFault) (w : CmdWord) (s : State) : (raiseCoded f w s).ledCount = s.ledCount := rfl
@[simp] theorem raiseCoded_duty (f : CodedFault) (w : CmdWord) (s : State) : (raiseCoded f w s).duty = s.duty := rfl
@[simp] theorem raiseCoded_rdidx (f : CodedFault) (w : CmdWord) (s : State) : (raiseCoded f w s).rdidx = s.rdidx := rfl
@[simp] theorem raiseCoded_halfPend (f : CodedFault) (w : CmdWord) (s : State) : (raiseCoded f w s).halfPend = s.halfPend := rfl
@[simp] theorem raiseCoded_wrapPend (f : CodedFault) (w : CmdWord) (s : State) : (raiseCoded f w s).wrapPend = s.wrapPend := rfl
@[simp] theorem raiseCoded_buf (f : CodedFault) (w : CmdWord) (s : State) : (raiseCoded f w s).buf = s.buf := rfl
@[simp] theorem raiseCoded_err (f : CodedFault) (w : CmdWord) (s : State) : (raiseCoded f w s).err = s.err ||| (1#3 <<< f.bit) := rfl
@[simp] theorem raiseCoded_inited (f : CodedFault) (w : CmdWord) (s : State) : (raiseCoded f w s).inited = s.inited := rfl
@[simp] theorem raiseCoded_genRun (f : CodedFault) (w : CmdWord) (s : State) : (raiseCoded f w s).genRun = s.genRun := rfl
@[simp] theorem raiseCoded_tick (f : CodedFault) (w : CmdWord) (s : State) : (raiseCoded f w s).tick = s.tick := rfl
@[simp] theorem raiseCoded_pin (f : CodedFault) (w : CmdWord) (s : State) : (raiseCoded f w s).pin = s.pin := rfl
@[simp] theorem raiseCoded_active (f : CodedFault) (w : CmdWord) (s : State) : (raiseCoded f w s).active = s.active := rfl
@[simp] theorem raiseCoded_ledmem (f : CodedFault) (w : CmdWord) (s : State) : (raiseCoded f w s).ledmem = s.ledmem := rfl
@[simp] theorem raiseCoded_out (f : CodedFault) (w : CmdWord) (s : State) : (raiseCoded f w s).out = s.out := rfl
@[simp] theorem raiseCoded_hphase (f : CodedFault) (w : CmdWord) (s : State) : (raiseCoded f w s).hphase = s.hphase := rfl
@[simp] theorem raiseCoded_hcmd (f : CodedFault) (w : CmdWord) (s : State) : (raiseCoded f w s).hcmd = s.hcmd := rfl
@[simp] theorem raiseCoded_answers (f : CodedFault) (w : CmdWord) (s : State) : (raiseCoded f w s).answers = s.answers := rfl
@[simp] theorem raiseCoded_faultLog (f : CodedFault) (w : CmdWord) (s : State) : (raiseCoded f w s).faultLog = s.faultLog ++ [⟨f, w⟩] := rfl
@[simp] theorem raiseCoded_wave (f : CodedFault) (w : CmdWord) (s : State) : (raiseCoded f w s).wave = s.wave := rfl
@[simp] theorem raiseCoded_script (f : CodedFault) (w : CmdWord) (s : State) : (raiseCoded f w s).script = s.script := rfl
@[simp] theorem raiseCoded_turns (f : CodedFault) (w : CmdWord) (s : State) : (raiseCoded f w s).turns = s.turns := rfl
@[simp] theorem raiseCoded_turnCount (f : CodedFault) (w : CmdWord) (s : State) : (raiseCoded f w s).turnCount = s.turnCount := rfl

/-! ### countCycle -/

@[simp] theorem countCycle_cfg (s : State) : (countCycle s).cfg = s.cfg := rfl
@[simp] theorem countCycle_tx (s : State) : (countCycle s).tx = s.tx := rfl
@[simp] theorem countCycle_engine (s : State) : (countCycle s).engine = s.engine := rfl
@[simp] theorem countCycle_p (s : State) : (countCycle s).p = s.p := rfl
@[simp] theorem countCycle_clrCnt (s : State) : (countCycle s).clrCnt = s.clrCnt + 1 := rfl
@[simp] theorem countCycle_ledBase (s : State) : (countCycle s).ledBase = s.ledBase := rfl
@[simp] theorem countCycle_ledCount (s : State) : (countCycle s).ledCount = s.ledCount := rfl
@[simp] theorem countCycle_duty (s : State) : (countCycle s).duty = s.duty := rfl
@[simp] theorem countCycle_rdidx (s : State) : (countCycle s).rdidx = s.rdidx := rfl
@[simp] theorem countCycle_halfPend (s : State) : (countCycle s).halfPend = s.halfPend := rfl
@[simp] theorem countCycle_wrapPend (s : State) : (countCycle s).wrapPend = s.wrapPend := rfl
@[simp] theorem countCycle_buf (s : State) : (countCycle s).buf = s.buf := rfl
@[simp] theorem countCycle_err (s : State) : (countCycle s).err = s.err := rfl
@[simp] theorem countCycle_inited (s : State) : (countCycle s).inited = s.inited := rfl
@[simp] theorem countCycle_genRun (s : State) : (countCycle s).genRun = s.genRun := rfl
@[simp] theorem countCycle_tick (s : State) : (countCycle s).tick = s.tick := rfl
@[simp] theorem countCycle_pin (s : State) : (countCycle s).pin = s.pin := rfl
@[simp] theorem countCycle_active (s : State) : (countCycle s).active = s.active := rfl
@[simp] theorem countCycle_ledmem (s : State) : (countCycle s).ledmem = s.ledmem := rfl
@[simp] theorem countCycle_out (s : State) : (countCycle s).out = s.out := rfl
@[simp] theorem countCycle_hphase (s : State) : (countCycle s).hphase = s.hphase := rfl
@[simp] theorem countCycle_hcmd (s : State) : (countCycle s).hcmd = s.hcmd := rfl
@[simp] theorem countCycle_answers (s : State) : (countCycle s).answers = s.answers := rfl
@[simp] theorem countCycle_faultLog (s : State) : (countCycle s).faultLog = s.faultLog := rfl
@[simp] theorem countCycle_wave (s : State) : (countCycle s).wave = s.wave := rfl
@[simp] theorem countCycle_script (s : State) : (countCycle s).script = s.script := rfl
@[simp] theorem countCycle_turns (s : State) : (countCycle s).turns = s.turns := rfl
@[simp] theorem countCycle_turnCount (s : State) : (countCycle s).turnCount = s.turnCount := rfl

/-! ### setActive -/

@[simp] theorem setActive_cfg (b : Bool) (s : State) : (setActive b s).cfg = s.cfg := rfl
@[simp] theorem setActive_tx (b : Bool) (s : State) : (setActive b s).tx = s.tx := rfl
@[simp] theorem setActive_engine (b : Bool) (s : State) : (setActive b s).engine = s.engine := rfl
@[simp] theorem setActive_p (b : Bool) (s : State) : (setActive b s).p = s.p := rfl
@[simp] theorem setActive_clrCnt (b : Bool) (s : State) : (setActive b s).clrCnt = s.clrCnt := rfl
@[simp] theorem setActive_ledBase (b : Bool) (s : State) : (setActive b s).ledBase = s.ledBase := rfl
@[simp] theorem setActive_ledCount (b : Bool) (s : State) : (setActive b s).ledCount = s.ledCount := rfl
@[simp] theorem setActive_duty (b : Bool) (s : State) : (setActive b s).duty = s.duty := rfl
@[simp] theorem setActive_rdidx (b : Bool) (s : State) : (setActive b s).rdidx = s.rdidx := rfl
@[simp] theorem setActive_halfPend (b : Bool) (s : State) : (setActive b s).halfPend = s.halfPend := rfl
@[simp] theorem setActive_wrapPend (b : Bool) (s : State) : (setActive b s).wrapPend = s.wrapPend := rfl
@[simp] theorem setActive_buf (b : Bool) (s : State) : (setActive b s).buf = s.buf := rfl
@[simp] theorem setActive_err (b : Bool) (s : State) : (setActive b s).err = s.err := rfl
@[simp] theorem setActive_inited (b : Bool) (s : State) : (setActive b s).inited = s.inited := rfl
@[simp] theorem setActive_genRun (b : Bool) (s : State) : (setActive b s).genRun = s.genRun := rfl
@[simp] theorem setActive_tick (b : Bool) (s : State) : (setActive b s).tick = s.tick := rfl
@[simp] theorem setActive_pin (b : Bool) (s : State) : (setActive b s).pin = s.pin := rfl
@[simp] theorem setActive_active (b : Bool) (s : State) : (setActive b s).active = b := rfl
@[simp] theorem setActive_ledmem (b : Bool) (s : State) : (setActive b s).ledmem = s.ledmem := rfl
@[simp] theorem setActive_out (b : Bool) (s : State) : (setActive b s).out = s.out := rfl
@[simp] theorem setActive_hphase (b : Bool) (s : State) : (setActive b s).hphase = s.hphase := rfl
@[simp] theorem setActive_hcmd (b : Bool) (s : State) : (setActive b s).hcmd = s.hcmd := rfl
@[simp] theorem setActive_answers (b : Bool) (s : State) : (setActive b s).answers = s.answers := rfl
@[simp] theorem setActive_faultLog (b : Bool) (s : State) : (setActive b s).faultLog = s.faultLog := rfl
@[simp] theorem setActive_wave (b : Bool) (s : State) : (setActive b s).wave = s.wave := rfl
@[simp] theorem setActive_script (b : Bool) (s : State) : (setActive b s).script = s.script := rfl
@[simp] theorem setActive_turns (b : Bool) (s : State) : (setActive b s).turns = s.turns := rfl
@[simp] theorem setActive_turnCount (b : Bool) (s : State) : (setActive b s).turnCount = s.turnCount := rfl

/-! ### repeatWait -/

@[simp] theorem repeatWait_cfg (s : State) : (repeatWait s).cfg = s.cfg := rfl
@[simp] theorem repeatWait_tx (s : State) : (repeatWait s).tx = s.tx := rfl
@[simp] theorem repeatWait_engine (s : State) : (repeatWait s).engine = s.engine := rfl
@[simp] theorem repeatWait_p (s : State) : (repeatWait s).p = s.p := rfl
@[simp] theorem repeatWait_clrCnt (s : State) : (repeatWait s).clrCnt = s.clrCnt := rfl
@[simp] theorem repeatWait_ledBase (s : State) : (repeatWait s).ledBase = s.ledBase := rfl
@[simp] theorem repeatWait_ledCount (s : State) : (repeatWait s).ledCount = s.ledCount := rfl
@[simp] theorem repeatWait_duty (s : State) : (repeatWait s).duty = s.duty := rfl
@[simp] theorem repeatWait_rdidx (s : State) : (repeatWait s).rdidx = s.rdidx := rfl
@[simp] theorem repeatWait_halfPend (s : State) : (repeatWait s).halfPend = s.halfPend := rfl
@[simp] theorem repeatWait_wrapPend (s : State) : (repeatWait s).wrapPend = s.wrapPend := rfl
@[simp] theorem repeatWait_buf (s : State) : (repeatWait s).buf = s.buf := rfl
@[simp] theorem repeatWait_err (s : State) : (repeatWait s).err = s.err := rfl
@[simp] theorem repeatWait_inited (s : State) : (repeatWait s).inited = s.inited := rfl
@[simp] theorem repeatWait_genRun (s : State) : (repeatWait s).genRun = s.genRun := rfl
@[simp] theorem repeatWait_tick (s : State) : (repeatWait s).tick = s.tick := rfl
@[simp] theorem repeatWait_pin (s : State) : (repeatWait s).pin = s.pin := rfl
@[simp] theorem repeatWait_active (s : State) : (repeatWait s).active = s.active := rfl
@[simp] theorem repeatWait_ledmem (s : State) : (repeatWait s).ledmem = s.ledmem := rfl
@[simp] theorem repeatWait_out (s : State) : (repeatWait s).out = s.out := rfl
@[simp] theorem repeatWait_hphase (s : State) : (repeatWait s).hphase = s.hphase := rfl
@[simp] theorem repeatWait_hcmd (s : State) : (repeatWait s).hcmd = s.hcmd := rfl
@[simp] theorem repeatWait_answers (s : State) : (repeatWait s).answers = s.answers := rfl
@[simp] theorem repeatWait_faultLog (s : State) : (repeatWait s).faultLog = s.faultLog := rfl
@[simp] theorem repeatWait_wave (s : State) : (repeatWait s).wave = s.wave := rfl
@[simp] theorem repeatWait_script (s : State) : (repeatWait s).script = .wait :: s.script := rfl
@[simp] theorem repeatWait_turns (s : State) : (repeatWait s).turns = s.turns := rfl
@[simp] theorem repeatWait_turnCount (s : State) : (repeatWait s).turnCount = s.turnCount := rfl

/-! ### startEngine -/

@[simp] theorem startEngine_cfg (s : State) : (startEngine s).cfg = s.cfg := rfl
@[simp] theorem startEngine_tx (s : State) : (startEngine s).tx = s.tx := rfl
@[simp] theorem startEngine_engine (s : State) : (startEngine s).engine = .busy := rfl
@[simp] theorem startEngine_p (s : State) : (startEngine s).p = s.p := rfl
@[simp] theorem startEngine_clrCnt (s : State) : (startEngine s).clrCnt = s.clrCnt := rfl
@[simp] theorem startEngine_ledBase (s : State) : (startEngine s).ledBase = s.ledBase := rfl
@[simp] theorem startEngine_ledCount (s : State) : (startEngine s).ledCount = s.ledCount := rfl
@[simp] theorem startEngine_duty (s : State) : (startEngine s).duty = s.duty := rfl
@[simp] theorem startEngine_rdidx (s : State) : (startEngine s).rdidx = 0 := rfl
@[simp] theorem startEngine_halfPend (s : State) : (startEngine s).halfPend = false := rfl
@[simp] theorem startEngine_wrapPend (s : State) : (startEngine s).wrapPend = false := rfl
@[simp] theorem startEngine_buf (s : State) : (startEngine s).buf = s.buf := rfl
@[simp] theorem startEngine_err (s : State) : (startEngine s).err = s.err := rfl
@[simp] theorem startEngine_inited (s : State) : (startEngine s).inited = s.inited := rfl
@[simp] theorem startEngine_genRun (s : State) : (startEngine s).genRun = s.genRun := rfl
@[simp] theorem startEngine_tick (s : State) : (startEngine s).tick = s.tick := rfl
@[simp] theorem startEngine_pin (s : State) : (startEngine s).pin = s.pin := rfl
@[simp] theorem startEngine_active (s : State) : (startEngine s).active = s.active := rfl
@[simp] theorem startEngine_ledmem (s : State) : (startEngine s).ledmem = s.ledmem := rfl
@[simp] theorem startEngine_out (s : State) : (startEngine s).out = s.out := rfl
@[simp] theorem startEngine_hphase (s : State) : (startEngine s).hphase = s.hphase := rfl
@[simp] theorem startEngine_hcmd (s : State) : (startEngine s).hcmd = s.hcmd := rfl
@[simp] theorem startEngine_answers (s : State) : (startEngine s).answers = s.answers := rfl
@[simp] theorem startEngine_faultLog (s : State) : (startEngine s).faultLog = s.faultLog := rfl
@[simp] theorem startEngine_wave (s : State) : (startEngine s).wave = s.wave := rfl
@[simp] theorem startEngine_script (s : State) : (startEngine s).script = s.script := rfl
@[simp] theorem startEngine_turns (s : State) : (startEngine s).turns = s.turns := rfl
@[simp] theorem startEngine_turnCount (s : State) : (startEngine s).turnCount = s.turnCount := rfl

/-! ### stopEngine -/

@[simp] theorem stopEngine_cfg (s : State) : (stopEngine s).cfg = s.cfg := rfl
@[simp] theorem stopEngine_tx (s : State) : (stopEngine s).tx = s.tx := rfl
@[simp] theorem stopEngine_engine (s : State) : (stopEngine s).engine = .ready := rfl
@[simp] theorem stopEngine_p (s : State) : (stopEngine s).p = s.p := rfl
@[simp] theorem stopEngine_clrCnt (s : State) : (stopEngine s).clrCnt = s.clrCnt := rfl
@[simp] theorem stopEngine_ledBase (s : State) : (stopEngine s).ledBase = s.ledBase := rfl
@[simp] theorem stopEngine_ledCount (s : State) : (stopEngine s).ledCount = s.ledCount := rfl
@[simp] theorem stopEngine_duty (s : State) : (stopEngine s).duty = s.duty := rfl
@[simp] theorem stopEngine_rdidx (s : State) : (stopEngine s).rdidx = s.rdidx := rfl
@[simp] theorem stopEngine_halfPend (s : State) : (stopEngine s).halfPend = s.halfPend := rfl
@[simp] theorem stopEngine_wrapPend (s : State) : (stopEngine s).wrapPend = s.wrapPend := rfl
@[simp] theorem stopEngine_buf (s : State) : (stopEngine s).buf = s.buf := rfl
@[simp] theorem stopEngine_err (s : State) : (stopEngine s).err = s.err := rfl
@[simp] theorem stopEngine_inited (s : State) : (stopEngine s).inited = s.inited := rfl
@[simp] theorem stopEngine_genRun (s : State) : (stopEngine s).genRun = s.genRun := rfl
@[simp] theorem stopEngine_tick (s : State) : (stopEngine s).tick = s.tick := rfl
@[simp] theorem stopEngine_pin (s : State) : (stopEngine s).pin = s.pin := rfl
@[simp] theorem stopEngine_active (s : State) : (stopEngine s).active = s.active := rfl
@[simp] theorem stopEngine_ledmem (s : State) : (stopEngine s).ledmem = s.ledmem := rfl
@[simp] theorem stopEngine_out (s : State) : (stopEngine s).out = s.out := rfl
@[simp] theorem stopEngine_hphase (s : State) : (stopEngine s).hphase = s.hphase := rfl
@[simp] theorem stopEngine_hcmd (s : State) : (stopEngine s).hcmd = s.hcmd := rfl
@[simp] theorem stopEngine_answers (s : State) : (stopEngine s).answers = s.answers := rfl
@[simp] theorem stopEngine_faultLog (s : State) : (stopEngine s).faultLog = s.faultLog := rfl
@[simp] theorem stopEngine_wave (s : State) : (stopEngine s).wave = s.wave := rfl
@[simp] theorem stopEngine_script (s : State) : (stopEngine s).script = s.script := rfl
@[simp] theorem stopEngine_turns (s : State) : (stopEngine s).turns = s.turns := rfl
@[simp] theorem stopEngine_turnCount (s : State) : (stopEngine s).turnCount = s.turnCount := rfl

/-! ### moveEntry -/

@[simp] theorem moveEntry_cfg (v : Val) (s : State) : (moveEntry v s).cfg = s.cfg := rfl
@[simp] theorem moveEntry_tx (v : Val) (s : State) : (moveEntry v s).tx = s.tx := rfl
@[simp] theorem moveEntry_engine (v : Val) (s : State) : (moveEntry v s).engine = s.engine := rfl
@[simp] theorem moveEntry_p (v : Val) (s : State) : (moveEntry v s).p = s.p := rfl
@[simp] theorem moveEntry_clrCnt (v : Val) (s : State) : (moveEntry v s).clrCnt = s.clrCnt := rfl
@[simp] theorem moveEntry_ledBase (v : Val) (s : State) : (moveEntry v s).ledBase = s.ledBase := rfl
@[simp] theorem moveEntry_ledCount (v : Val) (s : State) : (moveEntry v s).ledCount = s.ledCount := rfl
@[simp] theorem moveEntry_duty (v : Val) (s : State) : (moveEntry v s).duty = v := rfl
@[simp] theorem moveEntry_rdidx (v : Val) (s : State) : (moveEntry v s).rdidx = nextRdidx s := rfl
@[simp] theorem moveEntry_halfPend (v : Val) (s : State) : (moveEntry v s).halfPend = (s.halfPend || raisesHalf s) := rfl
@[simp] theorem moveEntry_wrapPend (v : Val) (s : State) : (moveEntry v s).wrapPend = (s.wrapPend || raisesWrap s) := rfl
@[simp] theorem moveEntry_buf (v : Val) (s : State) : (moveEntry v s).buf = s.buf := rfl
@[simp] theorem moveEntry_err (v : Val) (s : State) : (moveEntry v s).err = s.err := rfl
@[simp] theorem moveEntry_inited (v : Val) (s : State) : (moveEntry v s).inited = s.inited := rfl
@[simp] theorem moveEntry_genRun (v : Val) (s : State) : (moveEntry v s).genRun = s.genRun := rfl
@[simp] theorem moveEntry_tick (v : Val) (s : State) : (moveEntry v s).tick = s.tick := rfl
@[simp] theorem moveEntry_pin (v : Val) (s : State) : (moveEntry v s).pin = s.pin := rfl
@[simp] theorem moveEntry_active (v : Val) (s : State) : (moveEntry v s).active = s.active := rfl
@[simp] theorem moveEntry_ledmem (v : Val) (s : State) : (moveEntry v s).ledmem = s.ledmem := rfl
@[simp] theorem moveEntry_out (v : Val) (s : State) : (moveEntry v s).out = s.out ++ [v] := rfl
@[simp] theorem moveEntry_hphase (v : Val) (s : State) : (moveEntry v s).hphase = s.hphase := rfl
@[simp] theorem moveEntry_hcmd (v : Val) (s : State) : (moveEntry v s).hcmd = s.hcmd := rfl
@[simp] theorem moveEntry_answers (v : Val) (s : State) : (moveEntry v s).answers = s.answers := rfl
@[simp] theorem moveEntry_faultLog (v : Val) (s : State) : (moveEntry v s).faultLog = s.faultLog := rfl
@[simp] theorem moveEntry_wave (v : Val) (s : State) : (moveEntry v s).wave = s.wave := rfl
@[simp] theorem moveEntry_script (v : Val) (s : State) : (moveEntry v s).script = s.script := rfl
@[simp] theorem moveEntry_turns (v : Val) (s : State) : (moveEntry v s).turns = s.turns := rfl
@[simp] theorem moveEntry_turnCount (v : Val) (s : State) : (moveEntry v s).turnCount = s.turnCount := rfl

/-! ### writeUnit -/

@[simp] theorem writeUnit_cfg (base : Nat) (u : List Val) (s : State) : (writeUnit base u s).cfg = s.cfg := rfl
@[simp] theorem writeUnit_tx (base : Nat) (u : List Val) (s : State) : (writeUnit base u s).tx = s.tx := rfl
@[simp] theorem writeUnit_engine (base : Nat) (u : List Val) (s : State) : (writeUnit base u s).engine = s.engine := rfl
@[simp] theorem writeUnit_p (base : Nat) (u : List Val) (s : State) : (writeUnit base u s).p = s.p + 1 := rfl
@[simp] theorem writeUnit_clrCnt (base : Nat) (u : List Val) (s : State) : (writeUnit base u s).clrCnt = s.clrCnt := rfl
@[simp] theorem writeUnit_ledBase (base : Nat) (u : List Val) (s : State) : (writeUnit base u s).ledBase = s.ledBase := rfl
@[simp] theorem writeUnit_ledCount (base : Nat) (u : List Val) (s : State) : (writeUnit base u s).ledCount = s.ledCount := rfl
@[simp] theorem writeUnit_duty (base : Nat) (u : List Val) (s : State) : (writeUnit base u s).duty = s.duty := rfl
@[simp] theorem writeUnit_rdidx (base : Nat) (u : List Val) (s : State) : (writeUnit base u s).rdidx = s.rdidx := rfl
@[simp] theorem writeUnit_halfPend (base : Nat) (u : List Val) (s : State) : (writeUnit base u s).halfPend = s.halfPend := rfl
@[simp] theorem writeUnit_wrapPend (base : Nat) (u : List Val) (s : State) : (writeUnit base u s).wrapPend = s.wrapPend := rfl
@[simp] theorem writeUnit_buf (base : Nat) (u : List Val) (s : State) : (writeUnit base u s).buf = bufWrite base u s.buf := rfl
@[simp] theorem writeUnit_err (base : Nat) (u : List Val) (s : State) : (writeUnit base u s).err = s.err := rfl
@[simp] theorem writeUnit_inited (base : Nat) (u : List Val) (s : State) : (writeUnit base u s).inited = s.inited := rfl
@[simp] theorem writeUnit_genRun (base : Nat) (u : List Val) (s : State) : (writeUnit base u s).genRun = s.genRun := rfl
@[simp] theorem writeUnit_tick (base : Nat) (u : List Val) (s : State) : (writeUnit base u s).tick = s.tick := rfl
@[simp] theorem writeUnit_pin (base : Nat) (u : List Val) (s : State) : (writeUnit base u s).pin = s.pin := rfl
@[simp] theorem writeUnit_active (base : Nat) (u : List Val) (s : State) : (writeUnit base u s).active = s.active := rfl
@[simp] theorem writeUnit_ledmem (base : Nat) (u : List Val) (s : State) : (writeUnit base u s).ledmem = s.ledmem := rfl
@[simp] theorem writeUnit_out (base : Nat) (u : List Val) (s : State) : (writeUnit base u s).out = s.out := rfl
@[simp] theorem writeUnit_hphase (base : Nat) (u : List Val) (s : State) : (writeUnit base u s).hphase = s.hphase := rfl
@[simp] theorem writeUnit_hcmd (base : Nat) (u : List Val) (s : State) : (writeUnit base u s).hcmd = s.hcmd := rfl
@[simp] theorem writeUnit_answers (base : Nat) (u : List Val) (s : State) : (writeUnit base u s).answers = s.answers := rfl
@[simp] theorem writeUnit_faultLog (base : Nat) (u : List Val) (s : State) : (writeUnit base u s).faultLog = s.faultLog := rfl
@[simp] theorem writeUnit_wave (base : Nat) (u : List Val) (s : State) : (writeUnit base u s).wave = s.wave := rfl
@[simp] theorem writeUnit_script (base : Nat) (u : List Val) (s : State) : (writeUnit base u s).script = s.script := rfl
@[simp] theorem writeUnit_turns (base : Nat) (u : List Val) (s : State) : (writeUnit base u s).turns = s.turns := rfl
@[simp] theorem writeUnit_turnCount (base : Nat) (u : List Val) (s : State) : (writeUnit base u s).turnCount = s.turnCount := rfl

/-! ### setUp -/

@[simp] theorem setUp_cfg (s : State) : (setUp s).cfg = s.cfg := rfl
@[simp] theorem setUp_tx (s : State) : (setUp s).tx = .idle := rfl
@[simp] theorem setUp_engine (s : State) : (setUp s).engine = .ready := rfl
@[simp] theorem setUp_p (s : State) : (setUp s).p = s.p := rfl
@[simp] theorem setUp_clrCnt (s : State) : (setUp s).clrCnt = s.clrCnt := rfl
@[simp] theorem setUp_ledBase (s : State) : (setUp s).ledBase = s.ledBase := rfl
@[simp] theorem setUp_ledCount (s : State) : (setUp s).ledCount = s.ledCount := rfl
@[simp] theorem setUp_duty (s : State) : (setUp s).duty = s.duty := rfl
@[simp] theorem setUp_rdidx (s : State) : (setUp s).rdidx = s.rdidx := rfl
@[simp] theorem setUp_halfPend (s : State) : (setUp s).halfPend = false := rfl
@[simp] theorem setUp_wrapPend (s : State) : (setUp s).wrapPend = false := rfl
@[simp] theorem setUp_buf (s : State) : (setUp s).buf = s.buf := rfl
@[simp] theorem setUp_err (s : State) : (setUp s).err = s.err := rfl
@[simp] theorem setUp_inited (s : State) : (setUp s).inited = true := rfl
@[simp] theorem setUp_genRun (s : State) : (setUp s).genRun = true := rfl
@[simp] theorem setUp_tick (s : State) : (setUp s).tick = s.tick := rfl
@[simp] theorem setUp_pin (s : State) : (setUp s).pin = s.pin := rfl
@[simp] theorem setUp_active (s : State) : (setUp s).active = s.active := rfl
@[simp] theorem setUp_ledmem (s : State) : (setUp s).ledmem = s.ledmem := rfl
@[simp] theorem setUp_out (s : State) : (setUp s).out = s.out := rfl
@[simp] theorem setUp_hphase (s : State) : (setUp s).hphase = s.hphase := rfl
@[simp] theorem setUp_hcmd (s : State) : (setUp s).hcmd = s.hcmd := rfl
@[simp] theorem setUp_answers (s : State) : (setUp s).answers = s.answers := rfl
@[simp] theorem setUp_faultLog (s : State) : (setUp s).faultLog = s.faultLog := rfl
@[simp] theorem setUp_wave (s : State) : (setUp s).wave = s.wave := rfl
@[simp] theorem setUp_script (s : State) : (setUp s).script = s.script := rfl
@[simp] theorem setUp_turns (s : State) : (setUp s).turns = s.turns := rfl
@[simp] theorem setUp_turnCount (s : State) : (setUp s).turnCount = s.turnCount := rfl

/-! ### drivePin -/

@[simp] theorem drivePin_cfg (s : State) : (drivePin s).cfg = s.cfg := rfl
@[simp] theorem drivePin_tx (s : State) : (drivePin s).tx = s.tx := rfl
@[simp] theorem drivePin_engine (s : State) : (drivePin s).engine = s.engine := rfl
@[simp] theorem drivePin_p (s : State) : (drivePin s).p = s.p := rfl
@[simp] theorem drivePin_clrCnt (s : State) : (drivePin s).clrCnt = s.clrCnt := rfl
@[simp] theorem drivePin_ledBase (s : State) : (drivePin s).ledBase = s.ledBase := rfl
@[simp] theorem drivePin_ledCount (s : State) : (drivePin s).ledCount = s.ledCount := rfl
@[simp] theorem drivePin_duty (s : State) : (drivePin s).duty = s.duty := rfl
@[simp] theorem drivePin_rdidx (s : State) : (drivePin s).rdidx = s.rdidx := rfl
@[simp] theorem drivePin_halfPend (s : State) : (drivePin s).halfPend = s.halfPend := rfl
@[simp] theorem drivePin_wrapPend (s : State) : (drivePin s).wrapPend = s.wrapPend := rfl
@[simp] theorem drivePin_buf (s : State) : (drivePin s).buf = s.buf := rfl
@[simp] theorem drivePin_err (s : State) : (drivePin s).err = s.err := rfl
@[simp] theorem drivePin_inited (s : State) : (drivePin s).inited = s.inited := rfl
@[simp] theorem drivePin_genRun (s : State) : (drivePin s).genRun = s.genRun := rfl
@[simp] theorem drivePin_tick (s : State) : (drivePin s).tick = nextTick s := rfl
@[simp] theorem drivePin_pin (s : State) : (drivePin s).pin = pinLevel s := rfl
@[simp] theorem drivePin_active (s : State) : (drivePin s).active = s.active := rfl
@[simp] theorem drivePin_ledmem (s : State) : (drivePin s).ledmem = s.ledmem := rfl
@[simp] theorem drivePin_out (s : State) : (drivePin s).out = s.out := rfl
@[simp] theorem drivePin_hphase (s : State) : (drivePin s).hphase = s.hphase := rfl
@[simp] theorem drivePin_hcmd (s : State) : (drivePin s).hcmd = s.hcmd := rfl
@[simp] theorem drivePin_answers (s : State) : (drivePin s).answers = s.answers := rfl
@[simp] theorem drivePin_faultLog (s : State) : (drivePin s).faultLog = s.faultLog := rfl
@[simp] theorem drivePin_wave (s : State) : (drivePin s).wave = s.wave ++ [pinLevel s] := rfl
@[simp] theorem drivePin_script (s : State) : (drivePin s).script = s.script := rfl
@[simp] theorem drivePin_turns (s : State) : (drivePin s).turns = s.turns := rfl
@[simp] theorem drivePin_turnCount (s : State) : (drivePin s).turnCount = s.turnCount := rfl

end Sys2Proof.Machine
end

