-- ==== Sys2Proof/Laws/Buffer.lean ====
section
/-! SUPPORT. The laws of the Transfer Buffer: what a run of writes leaves in it, where the slots lie (20_memory.md R55, R57),
and what a unit holds. -/

namespace Sys2Proof.Machine

@[simp] theorem bufWrite_length (base : Nat) (vs buf : List Val) : (bufWrite base vs buf).length = buf.length := by
  induction vs generalizing base buf with
  | nil => rfl
  | cons v vs ih => rw [bufWrite, ih, List.length_set]

theorem bufWrite_outside (base : Nat) (vs buf : List Val) (i : Nat) (h : i < base ∨ base + vs.length ≤ i) :
    (bufWrite base vs buf)[i]? = buf[i]? := by
  induction vs generalizing base buf with
  | nil => rfl
  | cons v vs ih =>
    simp only [List.length_cons] at h
    rw [bufWrite, ih _ _ (by omega), List.getElem?_set_ne (by omega)]

theorem bufWrite_inside (base : Nat) (vs buf : List Val) (k : Nat) (hk : k < vs.length)
    (hb : base + vs.length ≤ buf.length) : (bufWrite base vs buf)[base + k]? = vs[k]? := by
  induction vs generalizing base buf k with
  | nil => simp at hk
  | cons v vs ih =>
    simp only [List.length_cons] at hk hb
    rw [bufWrite]
    cases k with
    | zero =>
      have hlt : base < buf.length := by omega
      rw [bufWrite_outside _ _ _ _ (by omega)]
      simp [hlt]
    | succ k =>
      have := ih (base + 1) (buf.set base v) k (by omega) (by simp; omega)
      rw [show base + (k + 1) = base + 1 + k by omega, this]; simp

theorem mem_bufWrite {base : Nat} {vs buf : List Val} {x : Val} (h : x ∈ bufWrite base vs buf) : x ∈ buf ∨ x ∈ vs := by
  induction vs generalizing base buf with
  | nil => exact .inl h
  | cons v vs ih =>
    rcases ih h with h | h
    · rcases List.mem_or_eq_of_mem_set h with h | rfl
      · exact .inl h
      · exact .inr (List.mem_cons_self ..)
    · exact .inr (List.mem_cons_of_mem _ h)

/-! ### Units -/

@[simp] theorem dataUnit_length (c : Config) (v : Colour) : (dataUnit c v).length = 24 := by simp [dataUnit, unitSize]

@[simp] theorem deadUnit_length (c : Config) : (deadUnit c).length = 24 := by simp [deadUnit, unitSize]

/-- Entry k of a data unit is Sym of bit 23 − k (R53). -/
theorem dataUnit_getElem? (c : Config) (v : Colour) (k : Nat) (hk : k < 24) :
    (dataUnit c v)[k]? = some (sym c (v.getLsbD (23 - k))) := by
  simp [dataUnit, unitSize, hk]

theorem deadUnit_getElem? (c : Config) (k : Nat) (hk : k < 24) : (deadUnit c)[k]? = some c.w0 := by
  rw [deadUnit, List.getElem?_replicate, if_pos hk]

/-- There are exactly two symbols (R88). -/
theorem sym_eq (c : Config) (b : Bool) : sym c b = c.w0 ∨ sym c b = c.w1 := by cases b <;> simp [sym]

theorem mem_dataUnit {c : Config} {v : Colour} {x : Val} (h : x ∈ dataUnit c v) : x = c.w0 ∨ x = c.w1 := by
  simp only [dataUnit, List.mem_map] at h
  obtain ⟨k, -, rfl⟩ := h
  exact sym_eq ..

theorem mem_deadUnit {c : Config} {x : Val} (h : x ∈ deadUnit c) : x = c.w0 := (List.mem_replicate.mp h).2

/-! ### Where the slots lie -/

theorem config_half_double (c : Config) (h : c.wf = true) : 2 * c.half = c.n := by
  simp only [Config.wf, Bool.and_eq_true, decide_eq_true_eq] at h
  simp only [Config.half]; omega

theorem config_slots_fit (c : Config) : 24 * c.k ≤ c.half := by
  simp only [Config.k, unitSize]; omega

/-- At least one LED slot fits in a half (D4). -/
theorem config_k_pos (c : Config) (h : c.wf = true) : 0 < c.k := by
  simp only [Config.wf, Bool.and_eq_true, decide_eq_true_eq] at h
  simp only [Config.k, Config.half, unitSize]; omega

theorem halfBase_eq (c : Config) (h : Half) : halfBase c h = 0 ∧ h = .low ∨ halfBase c h = c.half ∧ h = .high := by
  cases h <;> simp [halfBase, halfIndex]

/-- A unit never straddles the two halves nor runs past the buffer (R55). -/
theorem slot_in_half (c : Config) (h : Half) (j : Nat) (hj : j < c.k) :
    halfBase c h ≤ slotBase c h j ∧ slotBase c h j + 24 ≤ halfBase c h + c.half := by
  have := config_slots_fit c
  simp only [slotBase, unitSize]; omega

theorem slot_in_buffer (c : Config) (hc : c.wf = true) (h : Half) (j : Nat) (hj : j < c.k) :
    slotBase c h j + 24 ≤ c.n := by
  have := slot_in_half c h j hj
  have := config_half_double c hc
  rcases halfBase_eq c h with ⟨hb, -⟩ | ⟨hb, -⟩ <;> omega

end Sys2Proof.Machine
end

