-- ==== Sys2Proof/Laws/Memory.lean ====
section
/-! SUPPORT. The laws of the LED space: a read after a write, and that every memory operation keeps the canonical form. -/

namespace Sys2Proof.Machine

/-! ### Bytes -/

theorem memRead_memWrite_same (m : Memory) (a : Nat) (v : Byte) (h : Memory.Wf m) : memRead (memWrite m a v) a = v := by
  obtain ⟨hs, hz, hb⟩ := h
  induction m with
  | nil => by_cases hv : v = unlistedByte <;> simp [memWrite, memRead, hv]
  | cons c m ih =>
    obtain ⟨x, b⟩ := c
    simp only [List.map_cons, List.pairwise_cons, List.mem_map, forall_exists_index, and_imp] at hs
    have ih := ih hs.2 (fun c hc => hz c (List.mem_cons_of_mem _ hc)) (fun c hc => hb c (List.mem_cons_of_mem _ hc))
    have absent : ∀ m' : Memory, (∀ c ∈ m', a < c.1) → memRead m' a = unlistedByte := by
      intro m' hm
      induction m' with
      | nil => rfl
      | cons c m' ih' =>
        have := hm c (List.mem_cons_self ..)
        simp only [memRead, Nat.ne_of_gt this, if_false]
        exact ih' fun c hc => hm c (List.mem_cons_of_mem _ hc)
    have above : ∀ c ∈ m, x < c.1 := fun c hc => hs.1 c.1 c hc rfl
    simp only [memWrite]
    split
    · rename_i hlt
      split
      · rename_i hv
        rw [hv]
        exact absent _ fun c hc => by
          rcases List.mem_cons.mp hc with rfl | hc
          · exact hlt
          · exact Nat.lt_trans hlt (above c hc)
      · simp [memRead]
    · split
      · rename_i hax
        split
        · rename_i hv
          rw [hv]
          exact absent _ fun c hc => hax ▸ above c hc
        · simp [memRead]
      · rename_i _ hax
        simp only [memRead, Ne.symm hax, if_false]
        exact ih

theorem memRead_memWrite_other (m : Memory) (a a' : Nat) (v : Byte) (hne : a' ≠ a) :
    memRead (memWrite m a v) a' = memRead m a' := by
  induction m with
  | nil => by_cases hv : v = unlistedByte <;> simp [memWrite, memRead, hv, Ne.symm hne]
  | cons c m ih =>
    obtain ⟨x, b⟩ := c
    simp only [memWrite]
    split
    · split
      · rfl
      · simp [memRead, Ne.symm hne]
    · split
      · rename_i hax
        split <;> simp [memRead, ← hax, Ne.symm hne]
      · simp only [memRead, ih]

theorem mem_memWrite {m : Memory} {a : Nat} {v : Byte} {c : Host.Cell} (h : c ∈ memWrite m a v) :
    c ∈ m ∨ (c = (a, v) ∧ v ≠ unlistedByte) := by
  induction m with
  | nil =>
    simp only [memWrite] at h
    split at h
    · cases h
    · rename_i hv
      exact .inr ⟨List.mem_singleton.mp h, hv⟩
  | cons x m ih =>
    obtain ⟨x, b⟩ := x
    simp only [memWrite] at h
    split at h
    · split at h
      · exact .inl h
      · rename_i hv
        rcases List.mem_cons.mp h with h | h
        · exact .inr ⟨h, hv⟩
        · exact .inl h
    · split at h
      · split at h
        · exact .inl (List.mem_cons_of_mem _ h)
        · rename_i hv
          rcases List.mem_cons.mp h with h | h
          · exact .inr ⟨h, hv⟩
          · exact .inl (List.mem_cons_of_mem _ h)
      · rcases List.mem_cons.mp h with h | h
        · exact .inl (h ▸ List.mem_cons_self ..)
        · rcases ih h with h | h
          · exact .inl (List.mem_cons_of_mem _ h)
          · exact .inr h

theorem memWrite_wf (m : Memory) (a : Nat) (v : Byte) (h : Memory.Wf m) (ha : a < 3 * ledmemSize) :
    Memory.Wf (memWrite m a v) := by
  refine ⟨?_, fun c hc => ?_, fun c hc => ?_⟩
  · obtain ⟨hs, -, -⟩ := h
    induction m with
    | nil => by_cases hv : v = unlistedByte <;> simp [memWrite, hv]
    | cons c m ih =>
      obtain ⟨x, b⟩ := c
      have hs' := hs
      simp only [List.map_cons, List.pairwise_cons, List.mem_map, forall_exists_index, and_imp] at hs
      have above : ∀ c ∈ m, x < c.1 := fun c hc => hs.1 c.1 c hc rfl
      simp only [memWrite]
      split
      · rename_i hlt
        split
        · exact hs'
        · simp only [List.map_cons, List.pairwise_cons, List.mem_cons, List.mem_map]
          refine ⟨fun y hy => ?_, fun y ⟨c, hc, e⟩ => e ▸ above c hc, hs.2⟩
          rcases hy with rfl | ⟨c, hc, rfl⟩
          · exact hlt
          · exact Nat.lt_trans hlt (above c hc)
      · split
        · rename_i hax
          split
          · exact hs.2
          · simp only [List.map_cons, List.pairwise_cons, List.mem_map]
            exact ⟨fun y ⟨c, hc, hy⟩ => hy ▸ hax ▸ above c hc, hs.2⟩
        · rename_i hnlt hax
          simp only [List.map_cons, List.pairwise_cons, List.mem_map]
          refine ⟨fun y ⟨c, hc, hy⟩ => ?_, ih hs.2⟩
          subst hy
          rcases mem_memWrite hc with hc | ⟨rfl, -⟩
          · exact above c hc
          · show x < a
            omega
  · rcases mem_memWrite hc with hc | ⟨rfl, hv⟩
    · exact h.2.1 c hc
    · exact hv
  · rcases mem_memWrite hc with hc | ⟨rfl, -⟩
    · exact h.2.2 c hc
    · exact ha

/-! ### Elements -/

theorem ledWrite_wf (m : Memory) (a : Nat) (v : Colour) (h : Memory.Wf m) (ha : a < ledmemSize) :
    Memory.Wf (ledWrite m a v) := by
  have ha : a < 4096 := ha
  exact memWrite_wf _ _ _ (memWrite_wf _ _ _ (memWrite_wf _ _ _ h (show _ < 3 * 4096 by omega)) (show _ < 3 * 4096 by omega))
    (show _ < 3 * 4096 by omega)

theorem memRead_ledWrite_other (m : Memory) (a x : Nat) (v : Colour) (hx : x < 3 * a ∨ 3 * a + 2 < x) :
    memRead (ledWrite m a v) x = memRead m x := by
  rw [ledWrite, memRead_memWrite_other _ _ _ _ (by omega), memRead_memWrite_other _ _ _ _ (by omega),
    memRead_memWrite_other _ _ _ _ (by omega)]

theorem ledRead_ledWrite_same (m : Memory) (a : Nat) (v : Colour) (h : Memory.Wf m) (ha : a < ledmemSize) :
    ledRead (ledWrite m a v) a = v := by
  have ha : a < 4096 := ha
  have h1 := memWrite_wf m (3 * a) (v.extractLsb' 16 8) h (show _ < 3 * 4096 by omega)
  have h2 := memWrite_wf _ (3 * a + 1) (v.extractLsb' 8 8) h1 (show _ < 3 * 4096 by omega)
  rw [ledRead, ledWrite, memRead_memWrite_same _ _ _ h2, memRead_memWrite_other _ _ _ _ (by omega),
    memRead_memWrite_other _ _ _ _ (by omega), memRead_memWrite_same _ _ _ h,
    memRead_memWrite_other _ _ _ _ (by omega), memRead_memWrite_same _ _ _ h1]
  ext i hi
  simp only [BitVec.getElem_append, BitVec.getElem_extractLsb']
  repeat' split
  all_goals (rw [BitVec.getLsbD_eq_getElem (by omega)]; congr 1; omega)

theorem ledRead_ledWrite_other (m : Memory) (a a' : Nat) (v : Colour) (hne : a' ≠ a) :
    ledRead (ledWrite m a v) a' = ledRead m a' := by
  rw [ledRead, memRead_ledWrite_other _ _ _ _ (by omega), memRead_ledWrite_other _ _ _ _ (by omega),
    memRead_ledWrite_other _ _ _ _ (by omega), ledRead]

/-! ### CLEAR's zeroing -/

theorem zeroLeds_wf (m : Memory) (base count : Nat) (h : Memory.Wf m) (hb : base + count ≤ ledmemSize) :
    Memory.Wf (zeroLeds m base count) := by
  induction count generalizing m base with
  | zero => exact h
  | succ n ih =>
    have hb : base + (n + 1) ≤ 4096 := hb
    exact ih _ _ (ledWrite_wf m base 0 h (show base < 4096 by omega)) (show base + 1 + n ≤ 4096 by omega)

/-- Bytes outside the zeroed elements stay. -/
theorem memRead_zeroLeds_other (m : Memory) (base count x : Nat) (hx : x < 3 * base ∨ 3 * (base + count) ≤ x) :
    memRead (zeroLeds m base count) x = memRead m x := by
  induction count generalizing m base with
  | zero => rfl
  | succ n ih => rw [zeroLeds, ih _ _ (by omega), memRead_ledWrite_other _ _ _ _ (by omega)]

theorem ledRead_zeroLeds_other (m : Memory) (base count a : Nat) (ha : a < base ∨ base + count ≤ a) :
    ledRead (zeroLeds m base count) a = ledRead m a := by
  rw [ledRead, memRead_zeroLeds_other _ _ _ _ (by omega), memRead_zeroLeds_other _ _ _ _ (by omega),
    memRead_zeroLeds_other _ _ _ _ (by omega), ledRead]

/-- Every element of the zeroed range reads 0. -/
theorem ledRead_zeroLeds_same (m : Memory) (base count a : Nat) (h : Memory.Wf m) (hb : base + count ≤ ledmemSize)
    (ha : base ≤ a) (ha' : a < base + count) : ledRead (zeroLeds m base count) a = 0 := by
  induction count generalizing m base with
  | zero => omega
  | succ n ih =>
    have hb : base + (n + 1) ≤ 4096 := hb
    have hw := ledWrite_wf m base 0 h (show base < 4096 by omega)
    rw [zeroLeds]
    by_cases hab : a = base
    · subst hab
      rw [ledRead_zeroLeds_other _ _ _ _ (by omega),
        ledRead_ledWrite_same _ _ _ h (show a < 4096 by omega)]
    · exact ih _ _ hw (show base + 1 + n ≤ 4096 by omega) (by omega) (by omega)

end Sys2Proof.Machine
end

