-- ==== Sys2Proof/Laws/Encoder.lean ====
section
/-! SUPPORT. Everything the Bit Encoder can do (40_bit_encoder.md R100 to R106): the cases of ENCODE_UNIT, and what
ENCODE_HALF writes, counts and leaves alone. -/

namespace Sys2Proof.Machine

/-! ### andThen and the configuration guard -/

@[simp] theorem andThen_next (s : State) (f : State → Result) : andThen (.next s) f = f s := rfl

@[simp] theorem andThen_fault (r : Fault) (f : State → Result) : andThen (.fault r) f = .fault r := rfl

@[simp] theorem andThen_refused (r : Refusal) (f : State → Result) : andThen (.refused r) f = .refused r := rfl

theorem andThen_eq_next {o : Result} {f : State → Result} {t : State} (h : andThen o f = .next t) :
    ∃ s, o = .next s ∧ f s = .next t := by
  cases o with
  | next s => exact ⟨s, rfl, h⟩
  | fault r => cases h
  | refused r => cases h

theorem guardConfig_ok {s : State} (h : s.cfg.wf = true) (o : Result) : guardConfig s o = o := by
  simp [guardConfig, configOk, h]

theorem guardConfig_eq_next {s t : State} {o : Result} (h : guardConfig s o = .next t) :
    s.cfg.wf = true ∧ o = .next t := by
  by_cases hc : s.cfg.wf = true
  · exact ⟨hc, guardConfig_ok hc o ▸ h⟩
  · simp [guardConfig, configOk, hc] at h

/-! ### ENCODE_UNIT -/

/-- One unit writes BUF and P and nothing else. -/
theorem writeUnit_frame (base : Nat) (u : List Val) (s : State) :
    writeUnit base u s = { s with buf := (writeUnit base u s).buf, p := (writeUnit base u s).p } := rfl

theorem encodeUnit_cases {hf : Half} {j : Nat} {s t : State} (h : encodeUnit hf j s = .next t) :
    (s.p.toNat < totalUnits s ∧ t = writeUnit (slotBase s.cfg hf j) (transmissionUnit s s.p.toNat) s) ∨
    (totalUnits s ≤ s.p.toNat ∧ t = s) := by
  have hle : s.ledCount.toNat ≤ totalUnits s := Nat.le_add_right ..
  simp only [encodeUnit] at h
  split at h
  · split at h
    · cases h
      refine .inl ⟨by omega, ?_⟩
      rw [transmissionUnit, if_pos (by assumption), currentLed]
    · cases h
  · split at h
    · cases h
      refine .inl ⟨by assumption, ?_⟩
      rw [transmissionUnit, if_neg (by assumption)]
    · cases h
      exact .inr ⟨by omega, rfl⟩

theorem encodeUnit_writes {hf : Half} {j : Nat} {s : State} (hp : s.p.toNat < totalUnits s)
    (hr : s.ledBase.toNat + s.ledCount.toNat ≤ ledmemSize) :
    encodeUnit hf j s = .next (writeUnit (slotBase s.cfg hf j) (transmissionUnit s s.p.toNat) s) := by
  simp only [encodeUnit, transmissionUnit]
  split
  · rw [if_pos]
    · rfl
    · simp only [currentLed]; omega
  · rfl

theorem encodeUnit_exhausted {hf : Half} {j : Nat} {s : State} (hp : totalUnits s ≤ s.p.toNat) :
    encodeUnit hf j s = .next s := by
  have : ¬s.p.toNat < s.ledCount.toNat := by simp only [totalUnits] at hp; omega
  rw [encodeUnit, if_neg this, if_neg (by omega)]

@[simp] theorem transmissionUnit_length (s : State) (u : Nat) : (transmissionUnit s u).length = 24 := by
  simp only [transmissionUnit]; split <;> simp

theorem mem_transmissionUnit {s : State} {u : Nat} {v : Val} (h : v ∈ transmissionUnit s u) :
    v = s.cfg.w0 ∨ v = s.cfg.w1 := by
  simp only [transmissionUnit] at h
  split at h
  · exact mem_dataUnit h
  · exact .inl (mem_deadUnit h)

/-! ### ENCODE_HALF -/

/-- The encoder writes BUF and P and nothing else. -/
theorem encodeSlots_frame {hf : Half} {count j : Nat} {s t : State} (h : encodeSlots hf count j s = .next t) :
    t = { s with buf := t.buf, p := t.p } := by
  induction count generalizing j s with
  | zero => cases h; rfl
  | succ n ih =>
    obtain ⟨s1, h1, h2⟩ := andThen_eq_next h
    rcases encodeUnit_cases h1 with ⟨-, rfl⟩ | ⟨-, rfl⟩
    · exact (ih h2).trans rfl
    · exact ih h2

theorem encodeSlots_keeps_symbols {hf : Half} {count j : Nat} {s t : State} (h : encodeSlots hf count j s = .next t)
    (hb : ∀ v ∈ s.buf, v = s.cfg.w0 ∨ v = s.cfg.w1) : ∀ v ∈ t.buf, v = s.cfg.w0 ∨ v = s.cfg.w1 := by
  induction count generalizing j s with
  | zero => cases h; exact hb
  | succ n ih =>
    obtain ⟨s1, h1, h2⟩ := andThen_eq_next h
    rcases encodeUnit_cases h1 with ⟨-, rfl⟩ | ⟨-, rfl⟩
    · refine ih (s := writeUnit _ _ s) h2 fun v hv => ?_
      rw [writeUnit_buf] at hv
      exact (mem_bufWrite hv).elim (hb v) mem_transmissionUnit
    · exact ih h2 hb

theorem encodeSlots_length {hf : Half} {count j : Nat} {s t : State} (h : encodeSlots hf count j s = .next t) :
    t.buf.length = s.buf.length := by
  induction count generalizing j s with
  | zero => cases h; rfl
  | succ n ih =>
    obtain ⟨s1, h1, h2⟩ := andThen_eq_next h
    rcases encodeUnit_cases h1 with ⟨-, rfl⟩ | ⟨-, rfl⟩
    · simpa using ih h2
    · exact ih h2

/-- P counts the units written and stops at LED_COUNT + D (R106). -/
theorem encodeSlots_progress {hf : Half} {count j : Nat} {s t : State} (h : encodeSlots hf count j s = .next t)
    (hfit : totalUnits s < 2 ^ 16) (hp : s.p.toNat ≤ totalUnits s) :
    t.p.toNat = min (s.p.toNat + count) (totalUnits s) := by
  induction count generalizing j s with
  | zero => cases h; omega
  | succ n ih =>
    obtain ⟨s1, h1, h2⟩ := andThen_eq_next h
    rcases encodeUnit_cases h1 with ⟨hlt, rfl⟩ | ⟨hge, rfl⟩
    · have hinc : (s.p + 1).toNat = s.p.toNat + 1 := by rw [BitVec.toNat_add]; simp; omega
      have := ih h2 hfit (show (s.p + 1).toNat ≤ totalUnits s by omega)
      rw [this]
      show min ((s.p + 1).toNat + n) (totalUnits s) = _
      omega
    · rw [ih h2 hfit hp]; omega

/-- The encoder answers a next state when the array lies inside the LED space. -/
theorem encodeSlots_runs {hf : Half} {count j : Nat} {s : State}
    (hr : s.ledBase.toNat + s.ledCount.toNat ≤ ledmemSize) : ∃ t, encodeSlots hf count j s = .next t := by
  induction count generalizing j s with
  | zero => exact ⟨s, rfl⟩
  | succ n ih =>
    by_cases hp : s.p.toNat < totalUnits s
    · rw [encodeSlots, encodeUnit_writes hp hr]; exact ih hr
    · rw [encodeSlots, encodeUnit_exhausted (by omega)]; exact ih hr

/-- Entries outside the slots visited keep their value. -/
theorem encodeSlots_outside {hf : Half} {count j : Nat} {s t : State} (h : encodeSlots hf count j s = .next t) (i : Nat)
    (hi : i < slotBase s.cfg hf j ∨ slotBase s.cfg hf (j + count) ≤ i) : t.buf[i]? = s.buf[i]? := by
  induction count generalizing j s with
  | zero => cases h; rfl
  | succ n ih =>
    obtain ⟨s1, h1, h2⟩ := andThen_eq_next h
    have hi' : i < slotBase s.cfg hf (j + 1) ∨ slotBase s.cfg hf (j + 1 + n) ≤ i := by
      simp only [slotBase, unitSize] at hi ⊢; omega
    rcases encodeUnit_cases h1 with ⟨-, rfl⟩ | ⟨-, rfl⟩
    · rw [ih h2 hi', writeUnit_buf, bufWrite_outside]
      simp only [slotBase, unitSize, transmissionUnit_length] at hi ⊢; omega
    · exact ih h2 hi'

/-- Slot j + i of the slots visited holds unit P + i while there is one, and keeps its entries otherwise (R103, R105). -/
theorem encodeSlots_inside {hf : Half} {count j : Nat} {s t : State} (h : encodeSlots hf count j s = .next t)
    (hfit : totalUnits s < 2 ^ 16) (hlen : slotBase s.cfg hf (j + count) ≤ s.buf.length) (i k : Nat) (hi : i < count)
    (hk : k < 24) :
    t.buf[slotBase s.cfg hf (j + i) + k]? =
      if s.p.toNat + i < totalUnits s then (transmissionUnit s (s.p.toNat + i))[k]?
      else s.buf[slotBase s.cfg hf (j + i) + k]? := by
  induction count generalizing j i s with
  | zero => omega
  | succ n ih =>
    obtain ⟨s1, h1, h2⟩ := andThen_eq_next h
    rcases encodeUnit_cases h1 with ⟨hlt, rfl⟩ | ⟨hge, rfl⟩
    · have hinc : (s.p + 1).toNat = s.p.toNat + 1 := by rw [BitVec.toNat_add]; simp; omega
      cases i with
      | zero =>
        rw [Nat.add_zero, Nat.add_zero, if_pos hlt,
          encodeSlots_outside h2 _ (.inl (by simp only [slotBase, unitSize, writeUnit_cfg]; omega)), writeUnit_buf]
        apply bufWrite_inside
        · simpa using hk
        · simp only [slotBase, unitSize, transmissionUnit_length] at hlen ⊢; omega
      | succ i =>
        have := ih h2 hfit (by simpa [slotBase, unitSize, Nat.add_assoc, Nat.add_comm 1] using hlen) i (by omega)
        rw [show j + (i + 1) = j + 1 + i by omega]
        rw [writeUnit_cfg] at this
        rw [this]
        show (if (s.p + 1).toNat + i < totalUnits s then (transmissionUnit s ((s.p + 1).toNat + i))[k]? else _) = _
        rw [hinc, show s.p.toNat + 1 + i = s.p.toNat + (i + 1) by omega, writeUnit_buf]
        split
        · rfl
        · apply bufWrite_outside
          simp only [slotBase, unitSize, transmissionUnit_length]; omega
    · rw [if_neg (by omega)]
      cases i with
      | zero =>
        rw [Nat.add_zero]
        exact encodeSlots_outside h2 _ (.inl (by simp only [slotBase, unitSize]; omega))
      | succ i =>
        have := ih h2 hfit (by simpa [Nat.add_assoc, Nat.add_comm 1] using hlen) i (by omega)
        rw [if_neg (by omega)] at this
        rw [show j + (i + 1) = j + 1 + i by omega, this]

theorem encodeHalf_frame {hf : Half} {s t : State} (h : encodeHalf hf s = .next t) :
    t = { s with buf := t.buf, p := t.p } := encodeSlots_frame h

end Sys2Proof.Machine
end

