-- ==== Sys2Proof/Laws/Flags.lean ====
section
/-! SUPPORT. The checks and flags as propositions, so that no later proof unfolds them. -/

namespace Sys2Proof.Machine

theorem config_wf_iff (c : Config) : c.wf = true ↔
    c.n % 2 = 0 ∧ 48 ≤ c.n ∧ 0 < c.w0.toNat ∧ c.w0.toNat < c.w1.toNat ∧ c.w1.toNat ≤ c.period ∧ 2 ≤ c.period ∧
    1 ≤ c.clearLimit ∧ c.clearLimit < 2 ^ 16 ∧ c.maxLeds + c.d < 2 ^ 16 := by
  simp only [Config.wf, Bool.and_eq_true, decide_eq_true_eq, and_assoc]

theorem idleReady_iff (s : State) : idleReady s = true ↔ s.tx = .idle ∧ s.engine = .ready := by
  simp only [idleReady, Bool.and_eq_true, decide_eq_true_eq]

theorem idleReady_eq_false (s : State) : idleReady s = false ↔ ¬(s.tx = .idle ∧ s.engine = .ready) := by
  rw [← idleReady_iff, Bool.not_eq_true]

theorem engineRuns_iff (s : State) : engineRuns s = true ↔ s.engine = .busy ∧ s.genRun = true := by
  simp only [engineRuns, Bool.and_eq_true, decide_eq_true_eq]

theorem engineRuns_eq_false (s : State) : engineRuns s = false ↔ ¬(s.engine = .busy ∧ s.genRun = true) := by
  rw [← engineRuns_iff, Bool.not_eq_true]

theorem engineStalled_iff (s : State) : engineStalled s = true ↔ s.engine = .busy ∧ s.genRun = false := by
  simp only [engineStalled, Bool.and_eq_true, decide_eq_true_eq, Bool.not_eq_true']

theorem raisesHalf_iff (s : State) : raisesHalf s = true ↔ nextRdidx s = s.cfg.half := by
  simp only [raisesHalf, decide_eq_true_eq]

theorem raisesWrap_iff (s : State) : raisesWrap s = true ↔ nextRdidx s = 0 := by
  simp only [raisesWrap, decide_eq_true_eq]

theorem overruns_iff (s : State) : overruns s = true ↔
    (nextRdidx s = s.cfg.half ∨ nextRdidx s = 0) ∧ (s.halfPend = true ∨ s.wrapPend = true) := by
  simp only [overruns, Bool.and_eq_true, Bool.or_eq_true, raisesHalf_iff, raisesWrap_iff]

theorem overruns_eq_false (s : State) : overruns s = false ↔
    ((nextRdidx s = s.cfg.half ∨ nextRdidx s = 0) → s.halfPend = false ∧ s.wrapPend = false) := by
  rw [← Bool.not_eq_true, overruns_iff, not_and, not_or, Bool.not_eq_true, Bool.not_eq_true]

theorem badArgument_iff (c : Config) (base : LedIndex) (count : Count) : badArgument c base count = true ↔
    c.maxLeds < count.toNat ∨ ledmemSize < base.toNat + count.toNat := by
  simp only [badArgument, Bool.or_eq_true, decide_eq_true_eq]

theorem badArgument_eq_false (c : Config) (base : LedIndex) (count : Count) : badArgument c base count = false ↔
    count.toNat ≤ c.maxLeds ∧ base.toNat + count.toNat ≤ ledmemSize := by
  rw [← Bool.not_eq_true, badArgument_iff, not_or, Nat.not_lt, Nat.not_lt]

theorem overlapsBorrowed_iff (s : State) (base : LedIndex) (count : Count) : overlapsBorrowed s base count = true ↔
    s.tx = .sending ∧ 0 < count.toNat ∧ 0 < s.ledCount.toNat ∧ base.toNat < s.ledBase.toNat + s.ledCount.toNat ∧
      s.ledBase.toNat < base.toNat + count.toNat := by
  simp only [overlapsBorrowed, Bool.and_eq_true, decide_eq_true_eq, and_assoc]

theorem inBorrowed_iff (s : State) (a : LedIndex) : inBorrowed s a = true ↔
    s.tx = .sending ∧ s.ledBase.toNat ≤ a.toNat ∧ a.toNat < s.ledBase.toNat + s.ledCount.toNat := by
  simp only [inBorrowed, Bool.and_eq_true, decide_eq_true_eq, and_assoc]

/-- (RDIDX + 1) mod N for an RDIDX in range. -/
theorem nextRdidx_eq {s : State} (h : s.rdidx < s.cfg.n) :
    nextRdidx s = if s.rdidx + 1 = s.cfg.n then 0 else s.rdidx + 1 := by
  rw [nextRdidx]
  split
  · rename_i h; rw [h, Nat.mod_self]
  · rw [Nat.mod_eq_of_lt (by omega)]

/-- A step that keeps STATE is a row of the transition table. -/
theorem legalTransition_of_same {i : Instr} {s t : State} (h : t.tx = s.tx) : legalTransition i s t = true := by
  unfold legalTransition
  rw [h]
  cases s.tx <;> rfl

end Sys2Proof.Machine
end

