-- ==== Sys2Proof/Laws/Agents.lean ====
section
/-! SUPPORT. Everything the operations of the ENGINE, the GENERATOR, the HANDLER and the HOST can do, once per operation: if it
answers a next state, the guards it passed and that state. Later proofs cite these and do not unfold the meanings. -/

namespace Sys2Proof.Machine

/-! ### The Block Transfer Engine -/

theorem transferEntry_cases {s t : State} (h : transferEntry s = .next t) :
    overruns s = false ∧ ∃ v, s.buf[s.rdidx]? = some v ∧ t = moveEntry v s := by
  simp only [transferEntry] at h
  split at h
  · cases h
  · split at h
    · cases h
    · rename_i ho _ v hv
      cases h
      exact ⟨by simpa using ho, v, hv, rfl⟩

theorem transferEntry_runs {s : State} (ho : overruns s = false) {v : Val} (hv : s.buf[s.rdidx]? = some v) :
    transferEntry s = .next (moveEntry v s) := by
  simp [transferEntry, ho, hv]

theorem execEngXfer_cases {s t : State} (h : execEngXfer s = .next t) :
    s.cfg.wf = true ∧ engineRuns s = true ∧ overruns s = false ∧ ∃ v, s.buf[s.rdidx]? = some v ∧ t = moveEntry v s := by
  obtain ⟨hc, h⟩ := guardConfig_eq_next h
  split at h
  · exact ⟨hc, by assumption, transferEntry_cases h⟩
  · cases h

theorem execEngStart_cases {s t : State} (h : execEngStart s = .next t) : s.cfg.wf = true ∧ t = startEngine s := by
  obtain ⟨hc, h⟩ := guardConfig_eq_next h
  cases h; exact ⟨hc, rfl⟩

theorem execEngStop_cases {s t : State} (h : execEngStop s = .next t) : s.cfg.wf = true ∧ t = stopEngine s := by
  obtain ⟨hc, h⟩ := guardConfig_eq_next h
  cases h; exact ⟨hc, rfl⟩

/-! ### The Timing Generator -/

theorem startPeriod_cases {s t : State} (h : startPeriod s = .next t) :
    (s.tick ≠ 0 ∧ t = s) ∨ (s.tick = 0 ∧ s.engine = .ready ∧ t = setActive false s) ∨
    (s.tick = 0 ∧ s.engine = .busy ∧ overruns s = false ∧
      ∃ v, s.buf[s.rdidx]? = some v ∧ t = setActive true (moveEntry v s)) := by
  simp only [startPeriod] at h
  split at h
  · split at h
    · obtain ⟨u, hu, h⟩ := andThen_eq_next h
      obtain ⟨ho, v, hv, rfl⟩ := transferEntry_cases hu
      cases h
      exact .inr (.inr ⟨by assumption, by assumption, ho, v, hv, rfl⟩)
    · cases h
      refine .inr (.inl ⟨by assumption, ?_, rfl⟩)
      cases he : s.engine
      · rfl
      · contradiction
  · cases h
    exact .inl ⟨by assumption, rfl⟩

theorem execGenTick_cases {s t : State} (h : execGenTick s = .next t) :
    s.cfg.wf = true ∧ s.genRun = true ∧ ∃ u, startPeriod s = .next u ∧ t = drivePin u := by
  obtain ⟨hc, h⟩ := guardConfig_eq_next h
  split at h
  · obtain ⟨u, hu, h⟩ := andThen_eq_next h
    cases h
    exact ⟨hc, by assumption, u, hu, rfl⟩
  · cases h

/-! ### The Bit Encoder -/

theorem execEncodeUnit_cases {hf : Half} {j : Nat} {s t : State} (h : execEncodeUnit hf j s = .next t) :
    s.cfg.wf = true ∧ j < s.cfg.k ∧ encodeUnit hf j s = .next t := by
  obtain ⟨hc, h⟩ := guardConfig_eq_next h
  split at h
  · exact ⟨hc, by assumption, h⟩
  · cases h

theorem execEncodeHalf_cases {hf : Half} {s t : State} (h : execEncodeHalf hf s = .next t) :
    s.cfg.wf = true ∧ encodeHalf hf s = .next t := guardConfig_eq_next h

/-! ### The event handler -/

/-- Both handlers before the clear cycle: a refill, a stop, or nothing (R141, R142). -/
theorem refill_finish_cases {hf : Half} {s t : State}
    (h : andThen (refillOrDone hf s) (fun u => .next (finishDone u)) = .next t) :
    (s.tx = .sending ∧ s.p.toNat < totalUnits s ∧ encodeHalf hf s = .next t) ∨
    ((s.tx = .sending ∧ totalUnits s ≤ s.p.toNat ∨ s.tx = .done) ∧ t = setTx .idle (stopEngine s)) ∨
    ((s.tx = .idle ∨ s.tx = .clearing) ∧ t = s) := by
  obtain ⟨u, hu, h⟩ := andThen_eq_next h
  cases h
  simp only [refillOrDone] at hu
  split at hu
  · rename_i hs
    split at hu
    · have hf := encodeHalf_frame hu
      have htx : u.tx = .sending := by rw [hf]; exact hs
      have : finishDone u = u := by simp [finishDone, htx]
      exact .inl ⟨hs, by assumption, this.symm ▸ hu⟩
    · cases hu
      exact .inr (.inl ⟨.inl ⟨hs, by omega⟩, rfl⟩)
  · cases hu
    cases htx : s.tx
    · exact .inr (.inr ⟨.inl rfl, by simp [finishDone, htx]⟩)
    · contradiction
    · exact .inr (.inr ⟨.inr rfl, by simp [finishDone, htx]⟩)
    · exact .inr (.inl ⟨.inr rfl, by simp [finishDone, htx]⟩)

theorem execEvHalf_cases {s t : State} (h : execEvHalf s = .next t) :
    s.cfg.wf = true ∧ s.halfPend = true ∧
    ((s.tx = .sending ∧ s.p.toNat < totalUnits s ∧ encodeHalf .low (ackHalf s) = .next t) ∨
     ((s.tx = .sending ∧ totalUnits s ≤ s.p.toNat ∨ s.tx = .done) ∧ t = setTx .idle (stopEngine (ackHalf s))) ∨
     ((s.tx = .idle ∨ s.tx = .clearing) ∧ t = ackHalf s)) := by
  obtain ⟨hc, h⟩ := guardConfig_eq_next h
  split at h
  · exact ⟨hc, by assumption, refill_finish_cases h⟩
  · cases h

theorem execEvWrap_cases {s t : State} (h : execEvWrap s = .next t) :
    s.cfg.wf = true ∧ s.wrapPend = true ∧
    ((s.tx = .sending ∧ s.p.toNat < totalUnits s ∧ encodeHalf .high (ackWrap s) = .next t) ∨
     ((s.tx = .sending ∧ totalUnits s ≤ s.p.toNat ∨ s.tx = .done) ∧ t = setTx .idle (stopEngine (ackWrap s))) ∨
     (s.tx = .idle ∧ t = ackWrap s) ∨
     (s.tx = .clearing ∧ s.clrCnt.toNat + 1 < s.cfg.clearLimit ∧ t = countCycle (ackWrap s)) ∨
     (s.tx = .clearing ∧ s.cfg.clearLimit ≤ s.clrCnt.toNat + 1 ∧
       t = setTx .idle (stopEngine (countCycle (ackWrap s))))) := by
  obtain ⟨hc, h⟩ := guardConfig_eq_next h
  split at h
  · refine ⟨hc, by assumption, ?_⟩
    obtain ⟨u, hu, h⟩ := andThen_eq_next h
    cases h
    have h2 : andThen (refillOrDone .high (ackWrap s)) (fun u => .next (finishDone u)) = .next (finishDone u) := by
      rw [hu]; rfl
    rcases refill_finish_cases h2 with ⟨hs, hp, he⟩ | ⟨hs, ht⟩ | ⟨hs, ht⟩
    · have htx : (finishDone u).tx = .sending := by rw [encodeHalf_frame he]; exact hs
      have : countClear (finishDone u) = finishDone u := by simp [countClear, htx]
      rw [this]
      exact .inl ⟨hs, hp, he⟩
    · refine .inr (.inl ⟨hs, ?_⟩)
      rw [ht]; rfl
    · rw [ht]
      rcases hs with hs | hs
      · refine .inr (.inr (.inl ⟨hs, ?_⟩))
        have : ¬(ackWrap s).tx = .clearing := by rw [hs]; simp
        rw [countClear, if_neg this]
      · have hs' : (ackWrap s).tx = .clearing := hs
        by_cases hl : s.cfg.clearLimit ≤ s.clrCnt.toNat + 1
        · refine .inr (.inr (.inr (.inr ⟨hs, hl, ?_⟩)))
          rw [countClear, if_pos hs', if_pos (by exact hl)]
        · refine .inr (.inr (.inr (.inl ⟨hs, by omega, ?_⟩)))
          rw [countClear, if_pos hs', if_neg (by exact hl)]
  · cases h

/-! ### The HOST's commands -/

theorem waitAtPort_cases {accept : State → Result} {s t : State} (h : waitAtPort accept s = .next t) :
    (idleReady s = true ∧ accept s = .next t) ∨
    (engineStalled s = true ∧ s.cfg.eventTimeout.isSome = true ∧ t = freePort (raiseCoded .engineFault s.hcmd s)) ∨
    (idleReady s = false ∧ hostStuck s = false ∧ t = s) := by
  simp only [waitAtPort] at h
  split at h
  · exact .inl ⟨by assumption, h⟩
  · split at h
    · rename_i hst
      cases h
      simp only [Bool.and_eq_true] at hst
      exact .inr (.inl ⟨hst.1, hst.2, rfl⟩)
    · split at h
      · cases h
      · cases h
        exact .inr (.inr ⟨by simp_all, by simp_all, rfl⟩)

theorem presentSend_cases {base : LedIndex} {count : Count} {s t : State} (h : presentSend base count s = .next t) :
    (badArgument s.cfg base count = true ∧ t = raiseCoded .invalidArgument (sendWord base count) s) ∨
    (badArgument s.cfg base count = false ∧ s.cfg.nonblocking = true ∧ idleReady s = false ∧
      t = raiseCoded .busy (sendWord base count) s) ∨
    (badArgument s.cfg base count = false ∧ t = holdWord (sendWord base count) .waitSend s) := by
  simp only [presentSend] at h
  split at h
  · cases h; exact .inl ⟨by assumption, rfl⟩
  · split at h
    · cases h; simp_all
    · cases h; simp_all

theorem acceptSend_cases {base : LedIndex} {count : Count} {s t : State} (h : acceptSend base count s = .next t) :
    ∃ s1 s2, encodeHalf .low (storeReference base count s) = .next s1 ∧ encodeHalf .high s1 = .next s2 ∧
      t = freePort (startEngine (setTx .sending s2)) := by
  obtain ⟨s1, h1, h⟩ := andThen_eq_next h
  obtain ⟨s2, h2, h⟩ := andThen_eq_next h
  cases h
  exact ⟨s1, s2, h1, h2, rfl⟩

theorem execSend_cases {base : LedIndex} {count : Count} {s t : State} (h : execSend base count s = .next t) :
    s.cfg.wf = true ∧ s.inited = true ∧
    ((s.hphase = .free ∧ presentSend base count s = .next t) ∨
     (s.hphase = .waitSend ∧ s.hcmd = sendWord base count ∧ waitAtPort (acceptSend base count) s = .next t)) := by
  obtain ⟨hc, h⟩ := guardConfig_eq_next h
  split at h
  · cases h
  · refine ⟨hc, by simp_all, ?_⟩
    split at h
    · exact .inl ⟨by assumption, h⟩
    · split at h
      · exact .inr ⟨by assumption, by assumption, h⟩
      · cases h
    · cases h

theorem presentClear_cases {base : LedIndex} {count : Count} {s t : State} (h : presentClear base count s = .next t) :
    (badArgument s.cfg base count = true ∧ t = raiseCoded .invalidArgument (clearWord base count) s) ∨
    (badArgument s.cfg base count = false ∧ s.cfg.nonblocking = true ∧ idleReady s = false ∧
      t = raiseCoded .busy (clearWord base count) s) ∨
    (badArgument s.cfg base count = false ∧ overlapsBorrowed s base count = false ∧
      t = holdWord (clearWord base count) .waitClear (setLedmem (zeroLeds s.ledmem base.toNat count.toNat) s)) := by
  simp only [presentClear] at h
  split at h
  · cases h; exact .inl ⟨by assumption, rfl⟩
  · split at h
    · cases h; simp_all
    · split at h
      · cases h
      · cases h; simp_all

theorem execClear_cases {base : LedIndex} {count : Count} {s t : State} (h : execClear base count s = .next t) :
    s.cfg.wf = true ∧ s.inited = true ∧
    ((s.hphase = .free ∧ presentClear base count s = .next t) ∨
     (s.hphase = .waitClear ∧ s.hcmd = clearWord base count ∧ waitAtPort acceptClear s = .next t)) := by
  obtain ⟨hc, h⟩ := guardConfig_eq_next h
  split at h
  · cases h
  · refine ⟨hc, by simp_all, ?_⟩
    split at h
    · exact .inl ⟨by assumption, h⟩
    · split at h
      · exact .inr ⟨by assumption, by assumption, h⟩
      · cases h
    · cases h

theorem execInit_cases {s t : State} (h : execInit s = .next t) :
    s.cfg.wf = true ∧ s.inited = false ∧ s.hphase = .free ∧ t = beginClear (setUp s) := by
  obtain ⟨hc, h⟩ := guardConfig_eq_next h
  split at h
  · cases h
  · split at h
    · cases h; exact ⟨hc, by simp_all, by assumption, rfl⟩
    · cases h

theorem execReady_cases {s t : State} (h : execReady s = .next t) :
    s.cfg.wf = true ∧ s.inited = true ∧ s.hphase = .free ∧ t = giveAnswer s := by
  obtain ⟨hc, h⟩ := guardConfig_eq_next h
  split at h
  · cases h
  · split at h
    · cases h; exact ⟨hc, by simp_all, by assumption, rfl⟩
    · cases h

theorem execWait_cases {s t : State} (h : execWait s = .next t) :
    s.cfg.wf = true ∧ s.inited = true ∧ s.hphase = .free ∧
    ((s.tx = .idle ∧ t = giveAnswer s) ∨ (s.tx ≠ .idle ∧ t = repeatWait (giveAnswer s))) := by
  obtain ⟨hc, h⟩ := guardConfig_eq_next h
  split at h
  · cases h
  · split at h
    · refine ⟨hc, by simp_all, by assumption, ?_⟩
      split at h
      · cases h; exact .inl ⟨by assumption, rfl⟩
      · cases h; exact .inr ⟨by assumption, rfl⟩
    · cases h

theorem execLedw_cases {a : LedIndex} {r g b : Byte} {s t : State} (h : execLedw a r g b s = .next t) :
    s.cfg.wf = true ∧ s.hphase = .free ∧ inBorrowed s a = false ∧
      t = setLedmem (ledWrite s.ledmem a.toNat (r ++ g ++ b)) s := by
  obtain ⟨hc, h⟩ := guardConfig_eq_next h
  split at h
  · split at h
    · cases h
    · cases h; exact ⟨hc, by assumption, by simp_all, rfl⟩
  · cases h

/-! ### The operations once their guards hold -/

theorem exec_engXfer_runs {s : State} (hc : s.cfg.wf = true) (he : engineRuns s = true) :
    exec .engXfer s = transferEntry s := by
  show execEngXfer s = _
  rw [execEngXfer, guardConfig_ok hc, if_pos he]

theorem exec_genTick_runs {s : State} (hc : s.cfg.wf = true) (hg : s.genRun = true) :
    exec .genTick s = andThen (startPeriod s) fun t => .next (drivePin t) := by
  show execGenTick s = _
  rw [execGenTick, guardConfig_ok hc, if_pos hg]

theorem exec_encodeUnit_runs {s : State} {hf : Half} {j : Nat} (hc : s.cfg.wf = true) (hj : j < s.cfg.k) :
    exec (.encodeUnit hf j) s = encodeUnit hf j s := by
  show execEncodeUnit hf j s = _
  rw [execEncodeUnit, guardConfig_ok hc, if_pos hj]

theorem exec_encodeHalf_runs {s : State} {hf : Half} (hc : s.cfg.wf = true) : exec (.encodeHalf hf) s = encodeHalf hf s :=
  guardConfig_ok hc _

theorem exec_evHalf_runs {s : State} (hc : s.cfg.wf = true) (hp : s.halfPend = true) :
    exec .evHalf s = andThen (refillOrDone .low (ackHalf s)) fun t => .next (finishDone t) := by
  show execEvHalf s = _
  rw [execEvHalf, guardConfig_ok hc, if_pos hp]

theorem exec_evWrap_runs {s : State} (hc : s.cfg.wf = true) (hp : s.wrapPend = true) :
    exec .evWrap s = andThen (refillOrDone .high (ackWrap s)) fun t => .next (countClear (finishDone t)) := by
  show execEvWrap s = _
  rw [execEvWrap, guardConfig_ok hc, if_pos hp]

theorem exec_send_presents {s : State} {base : LedIndex} {count : Count} (hc : s.cfg.wf = true)
    (hi : s.inited = true) (hp : s.hphase = .free) : exec (.send base count) s = presentSend base count s := by
  show execSend base count s = _
  rw [execSend, guardConfig_ok hc, if_neg (by simp [hi])]
  simp only [hp]

theorem exec_send_waits {s : State} {base : LedIndex} {count : Count} (hc : s.cfg.wf = true) (hi : s.inited = true)
    (hp : s.hphase = .waitSend) (hw : s.hcmd = sendWord base count) :
    exec (.send base count) s = waitAtPort (acceptSend base count) s := by
  show execSend base count s = _
  rw [execSend, guardConfig_ok hc, if_neg (by simp [hi])]
  simp only [hp, if_pos hw]

theorem exec_clear_presents {s : State} {base : LedIndex} {count : Count} (hc : s.cfg.wf = true)
    (hi : s.inited = true) (hp : s.hphase = .free) : exec (.clear base count) s = presentClear base count s := by
  show execClear base count s = _
  rw [execClear, guardConfig_ok hc, if_neg (by simp [hi])]
  simp only [hp]

theorem exec_clear_waits {s : State} {base : LedIndex} {count : Count} (hc : s.cfg.wf = true) (hi : s.inited = true)
    (hp : s.hphase = .waitClear) (hw : s.hcmd = clearWord base count) :
    exec (.clear base count) s = waitAtPort acceptClear s := by
  show execClear base count s = _
  rw [execClear, guardConfig_ok hc, if_neg (by simp [hi])]
  simp only [hp, if_pos hw]

theorem exec_init_runs {s : State} (hc : s.cfg.wf = true) (hi : s.inited = false) (hp : s.hphase = .free) :
    exec .init s = .next (beginClear (setUp s)) := by
  show execInit s = _
  rw [execInit, guardConfig_ok hc, if_neg (by simp [hi]), if_pos hp]

theorem exec_ready_runs {s : State} (hc : s.cfg.wf = true) (hi : s.inited = true) (hp : s.hphase = .free) :
    exec .ready s = .next (giveAnswer s) := by
  show execReady s = _
  rw [execReady, guardConfig_ok hc, if_neg (by simp [hi]), if_pos hp]

theorem exec_wait_runs {s : State} (hc : s.cfg.wf = true) (hi : s.inited = true) (hp : s.hphase = .free) :
    exec .wait s = if s.tx = .idle then .next (giveAnswer s) else .next (repeatWait (giveAnswer s)) := by
  show execWait s = _
  rw [execWait, guardConfig_ok hc, if_neg (by simp [hi]), if_pos hp]

theorem exec_ledw_runs {s : State} {a : LedIndex} {r g b : Byte} (hc : s.cfg.wf = true) (hp : s.hphase = .free)
    (hb : inBorrowed s a = false) :
    exec (.ledw a r g b) s = .next (setLedmem (ledWrite s.ledmem a.toNat (r ++ g ++ b)) s) := by
  show execLedw a r g b s = _
  rw [execLedw, guardConfig_ok hc, if_pos hp, if_neg (by simp [hb])]

end Sys2Proof.Machine
end

