-- ==== Sys2Proof/Laws/Words.lean ====
section
/-! SUPPORT. The fields of a command word as numbers, and that a word's fields are the ones it was made of (30_encoding.md R81,
R92). -/

namespace Sys2Proof

theorem opField_toNat (w : CmdWord) : (opField w).toNat = w.toNat / 2 ^ 28 := by
  have := w.isLt
  simp only [opField, BitVec.extractLsb'_toNat, Nat.shiftRight_eq_div_pow]; omega

theorem baseField_toNat (w : CmdWord) : (baseField w).toNat = w.toNat / 2 ^ 16 % 2 ^ 12 := by
  simp only [baseField, BitVec.extractLsb'_toNat, Nat.shiftRight_eq_div_pow]

theorem countField_toNat (w : CmdWord) : (countField w).toNat = w.toNat % 2 ^ 16 := by
  simp only [countField, BitVec.extractLsb'_toNat, Nat.shiftRight_eq_div_pow]; omega

theorem cmdWordOf_toNat (op : BitVec 4) (base : LedIndex) (count : Count) :
    (cmdWordOf op base count).toNat = op.toNat * 2 ^ 28 + base.toNat * 2 ^ 16 + count.toNat := by
  have := op.isLt
  have := base.isLt
  have := count.isLt
  rw [cmdWordOf, BitVec.toNat_ofNat]; omega

@[simp] theorem opField_cmdWordOf (op : BitVec 4) (base : LedIndex) (count : Count) :
    opField (cmdWordOf op base count) = op := by
  have := base.isLt
  have := count.isLt
  apply BitVec.eq_of_toNat_eq
  rw [opField_toNat, cmdWordOf_toNat]; omega

@[simp] theorem baseField_cmdWordOf (op : BitVec 4) (base : LedIndex) (count : Count) :
    baseField (cmdWordOf op base count) = base := by
  have := base.isLt
  have := count.isLt
  apply BitVec.eq_of_toNat_eq
  rw [baseField_toNat, cmdWordOf_toNat]; omega

@[simp] theorem countField_cmdWordOf (op : BitVec 4) (base : LedIndex) (count : Count) :
    countField (cmdWordOf op base count) = count := by
  have := count.isLt
  apply BitVec.eq_of_toNat_eq
  rw [countField_toNat, cmdWordOf_toNat]; omega

@[simp] theorem Machine.baseField_sendWord (base : LedIndex) (count : Count) :
    baseField (Machine.sendWord base count) = base := baseField_cmdWordOf 1 base count

@[simp] theorem Machine.countField_sendWord (base : LedIndex) (count : Count) :
    countField (Machine.sendWord base count) = count := countField_cmdWordOf 1 base count

@[simp] theorem Machine.baseField_clearWord (base : LedIndex) (count : Count) :
    baseField (Machine.clearWord base count) = base := baseField_cmdWordOf 2 base count

@[simp] theorem Machine.countField_clearWord (base : LedIndex) (count : Count) :
    countField (Machine.clearWord base count) = count := countField_cmdWordOf 2 base count

end Sys2Proof
end

