-- ==== Sys2Proof/Laws/Turns.lean ====
section
/-! SUPPORT. Everything one step can do: it runs one operation on the state after the turn and the fetch, or the turn passes. -/

namespace Sys2Proof.Machine

/-- A turn changes the schedule and nothing else of the machine. -/
theorem takeTurn_state (s : State) :
    ∃ ts n, (takeTurn s).2 = { s with turns := ts, turnCount := n } := by
  simp only [takeTurn]
  split
  · exact ⟨_, _, rfl⟩
  · split <;> exact ⟨_, _, rfl⟩

/-- How many turns of other agents the schedule takes before the next turn of the pacer: those before its first place in the
list, else the whole list and the free part of the round that follows. -/
def turnsToPacer (s : State) : Nat :=
  if pacer s.cfg ∈ s.turns then s.turns.idxOf (pacer s.cfg)
  else s.turns.length + (Config.freeTurns s.turnCount).length

/-- Fairness (R165): a turn is the pacer's, or the pacer's next turn is nearer after it. -/
theorem takeTurn_fair (s : State) :
    (takeTurn s).1 = pacer s.cfg ∨ turnsToPacer (takeTurn s).2 < turnsToPacer s := by
  by_cases hp : (takeTurn s).1 = pacer s.cfg
  · exact .inl hp
  refine .inr ?_
  simp only [takeTurn] at hp ⊢
  split at hp
  · rename_i a rest ht
    have hne : (a == pacer s.cfg) = false := by simpa using hp
    simp only [turnsToPacer, ht, List.mem_cons, Ne.symm hp, false_or, List.idxOf_cons, hne, cond_false, List.length_cons]
    split <;> omega
  · rename_i ht
    split at hp
    · exact absurd rfl hp
    · rename_i a rest hf
      have hmem : pacer s.cfg ∈ rest ++ [pacer s.cfg] := by simp
      have hle : (rest ++ [pacer s.cfg]).idxOf (pacer s.cfg) < (rest ++ [pacer s.cfg]).length := List.idxOf_lt_length_of_mem hmem
      simp only [turnsToPacer, ht, hf, if_pos hmem, List.not_mem_nil, if_false, List.length_cons, List.length_nil,
        List.length_append] at hle ⊢
      omega

/-- No operation touches the schedule. -/
theorem exec_keeps_schedule {i : Instr} {s t : State} (h : exec i s = .next t) :
    t.turns = s.turns ∧ t.turnCount = s.turnCount := by
  have wait : ∀ {accept : State → Result}, (∀ {u}, accept s = .next u → u.turns = s.turns ∧ u.turnCount = s.turnCount) →
      waitAtPort accept s = .next t → t.turns = s.turns ∧ t.turnCount = s.turnCount := by
    intro accept ha hw
    rcases waitAtPort_cases hw with ⟨_, hw⟩ | ⟨_, _, rfl⟩ | ⟨_, _, rfl⟩
    · exact ha hw
    · exact ⟨rfl, rfl⟩
    · exact ⟨rfl, rfl⟩
  have enc : ∀ {hf : Half} {u v : State}, encodeHalf hf u = .next v → v.turns = u.turns ∧ v.turnCount = u.turnCount := by
    intro hf u v hu
    rw [encodeHalf_frame hu]
    exact ⟨rfl, rfl⟩
  cases i with
  | ready => obtain ⟨_, _, _, rfl⟩ := execReady_cases h; exact ⟨rfl, rfl⟩
  | init => obtain ⟨_, _, _, rfl⟩ := execInit_cases h; exact ⟨rfl, rfl⟩
  | wait => obtain ⟨_, _, _, ⟨_, rfl⟩ | ⟨_, rfl⟩⟩ := execWait_cases h <;> exact ⟨rfl, rfl⟩
  | ledw a r g b => obtain ⟨_, _, _, rfl⟩ := execLedw_cases h; exact ⟨rfl, rfl⟩
  | send base count =>
    obtain ⟨_, _, ⟨_, h⟩ | ⟨_, _, h⟩⟩ := execSend_cases h
    · rcases presentSend_cases h with ⟨_, rfl⟩ | ⟨_, _, _, rfl⟩ | ⟨_, rfl⟩ <;> exact ⟨rfl, rfl⟩
    · refine wait (fun ha => ?_) h
      obtain ⟨s1, s2, h1, h2, rfl⟩ := acceptSend_cases ha
      exact ⟨(enc h2).1.trans (enc h1).1, (enc h2).2.trans (enc h1).2⟩
  | clear base count =>
    obtain ⟨_, _, ⟨_, h⟩ | ⟨_, _, h⟩⟩ := execClear_cases h
    · rcases presentClear_cases h with ⟨_, rfl⟩ | ⟨_, _, _, rfl⟩ | ⟨_, _, rfl⟩ <;> exact ⟨rfl, rfl⟩
    · exact wait (fun ha => by cases ha; exact ⟨rfl, rfl⟩) h
  | evHalf =>
    obtain ⟨_, _, ⟨_, _, h⟩ | ⟨_, rfl⟩ | ⟨_, rfl⟩⟩ := execEvHalf_cases h
    · exact enc (u := ackHalf s) h
    · exact ⟨rfl, rfl⟩
    · exact ⟨rfl, rfl⟩
  | evWrap =>
    obtain ⟨_, _, ⟨_, _, h⟩ | ⟨_, rfl⟩ | ⟨_, rfl⟩ | ⟨_, _, rfl⟩ | ⟨_, _, rfl⟩⟩ := execEvWrap_cases h
    · exact enc (u := ackWrap s) h
    all_goals exact ⟨rfl, rfl⟩
  | encodeUnit hf j =>
    obtain ⟨_, _, h⟩ := execEncodeUnit_cases h
    rcases encodeUnit_cases h with ⟨_, rfl⟩ | ⟨_, rfl⟩ <;> exact ⟨rfl, rfl⟩
  | encodeHalf hf => exact enc (execEncodeHalf_cases h).2
  | engStart => obtain ⟨_, rfl⟩ := execEngStart_cases h; exact ⟨rfl, rfl⟩
  | engStop => obtain ⟨_, rfl⟩ := execEngStop_cases h; exact ⟨rfl, rfl⟩
  | engXfer => obtain ⟨_, _, _, v, _, rfl⟩ := execEngXfer_cases h; exact ⟨rfl, rfl⟩
  | genTick =>
    obtain ⟨_, _, u, hu, rfl⟩ := execGenTick_cases h
    rcases startPeriod_cases hu with ⟨_, rfl⟩ | ⟨_, _, rfl⟩ | ⟨_, _, _, v, _, rfl⟩ <;> exact ⟨rfl, rfl⟩

/-- A fetch changes the HOST's command sequence and nothing else of the machine. -/
theorem fetch_run {a : Agent} {s t : State} {i : Instr} (h : fetch a s = .run i t) : ∃ l, t = { s with script := l } := by
  have word : ∀ {w : CmdWord} {u : State}, fetchWord w u = .run i t → t = u := by
    intro w u hw
    simp only [fetchWord] at hw
    split at hw
    · cases hw; rfl
    · cases hw
  cases a with
  | host =>
    simp only [fetch, fetchHost] at h
    split at h
    · exact ⟨_, word h⟩
    · exact ⟨_, word h⟩
    · split at h
      · cases h
      · exact ⟨_, word h⟩
      · cases h; exact ⟨_, rfl⟩
      · cases h; exact ⟨_, rfl⟩
  | handler =>
    simp only [fetch, fetchHandler] at h
    split at h <;> cases h
    exact ⟨_, rfl⟩
  | engine =>
    simp only [fetch, fetchEngine] at h
    split at h
    · split at h <;> cases h
      exact ⟨_, rfl⟩
    · cases h
  | generator =>
    simp only [fetch, fetchGenerator] at h
    split at h
    · cases h
    · split at h <;> cases h
      exact ⟨_, rfl⟩

/-- The operations a turn can run: the commands and pseudo-instructions, the two handlers, and ENG_XFER or GEN_TICK (R4,
R5). The sub-steps are run by no turn. -/
theorem fetch_run_instr {a : Agent} {s t : State} {i : Instr} (h : fetch a s = .run i t) :
    (a = .host ∧ (i.format = .cmd ∨ i.format = .pseudo)) ∨
    (a = .handler ∧ (i = .evHalf ∨ i = .evWrap)) ∨ (a = .engine ∧ i = .engXfer ∧ engineRuns s = true) ∨
    (a = .generator ∧ i = .genTick ∧ s.genRun = true) := by
  have word : ∀ {w : CmdWord} {u : State}, fetchWord w u = .run i t → i.format = .cmd := by
    intro w u hw
    simp only [fetchWord] at hw
    split at hw
    · rename_i hd
      cases hw
      simp only [decodeCmd] at hd
      split at hd <;> cases hd <;> rfl
    · cases hw
  cases a with
  | host =>
    simp only [fetch, fetchHost] at h
    split at h
    · exact .inl ⟨rfl, .inl (word h)⟩
    · exact .inl ⟨rfl, .inl (word h)⟩
    · split at h
      · cases h
      · exact .inl ⟨rfl, .inl (word h)⟩
      · cases h; exact .inl ⟨rfl, .inr rfl⟩
      · cases h; exact .inl ⟨rfl, .inr rfl⟩
  | handler =>
    simp only [fetch, fetchHandler] at h
    split at h
    · rename_i hd
      cases h
      simp only [decodeEvt] at hd
      split at hd <;> cases hd
      · exact .inr (.inl ⟨rfl, .inl rfl⟩)
      · exact .inr (.inl ⟨rfl, .inr rfl⟩)
    · cases h
    · cases h
    · cases h
  | engine =>
    simp only [fetch, fetchEngine] at h
    split at h
    · split at h
      · cases h; exact .inr (.inr (.inl ⟨rfl, rfl, by assumption⟩))
      · cases h
    · cases h
  | generator =>
    simp only [fetch, fetchGenerator] at h
    split at h
    · cases h
    · split at h
      · cases h; exact .inr (.inr (.inr ⟨rfl, rfl, by assumption⟩))
      · cases h

/-- One step: the operation fetched, on a state that differs from s in the schedule and the command sequence, or a turn that
passes. -/
theorem step_cases {s t : State} (h : step s = .next t) :
    s.cfg.wf = true ∧
    ((∃ a i u, fetch a (takeTurn s).2 = .run i u ∧ exec i u = .next t) ∨
     (∃ ts n, t = { s with turns := ts, turnCount := n })) := by
  obtain ⟨hc, h⟩ := guardConfig_eq_next h
  refine ⟨hc, ?_⟩
  simp only [runTurn] at h
  split at h
  · exact .inl ⟨_, _, _, by assumption, h⟩
  · cases h; exact .inr (takeTurn_state s)
  · cases h
  · cases h

end Sys2Proof.Machine
end

