-- ==== Sys2Proof/Laws/PerInstr.lean ====
section
/-! SUPPORT. Statements made per instruction, about the instruction as syntax. -/

namespace Sys2Proof.Laws.Selection

/-- An instruction has bits exactly when its format selects operations by bits, CMD or EVT, and then the bits are of that
format (R80, R91, R93). -/
def Statement (i : Instr) : Prop :=
  match encode i with
  | some (.cmd _) => i.format = .cmd
  | some (.evt _) => i.format = .evt
  | none => i.format = .internal ∨ i.format = .pseudo

theorem ready : Statement .ready := rfl
theorem send (base : LedIndex) (count : Count) : Statement (.send base count) := rfl
theorem clear (base : LedIndex) (count : Count) : Statement (.clear base count) := rfl
theorem init : Statement .init := rfl
theorem evHalf : Statement .evHalf := rfl
theorem evWrap : Statement .evWrap := rfl
theorem encodeUnit (h : Half) (j : Nat) : Statement (.encodeUnit h j) := .inl rfl
theorem encodeHalf (h : Half) : Statement (.encodeHalf h) := .inl rfl
theorem engStart : Statement .engStart := .inl rfl
theorem engStop : Statement .engStop := .inl rfl
theorem engXfer : Statement .engXfer := .inl rfl
theorem genTick : Statement .genTick := .inl rfl
theorem wait : Statement .wait := .inr rfl
theorem ledw (a : LedIndex) (r g b : Byte) : Statement (.ledw a r g b) := .inr rfl

end Sys2Proof.Laws.Selection
end

