-- ==== Sys2Proof/Tests/Slice0.lean ====
section
/-! SUPPORT. Tests: words and one-step vectors whose expected values are those of 95_test_vectors.md and 30_encoding.md, the
checks of WellFormed, and for every obligation with hypotheses a witness that meets them. -/

namespace Sys2Proof.Tests

open Sys2Proof.Machine

/-! ### Helpers -/

/-- The operation answers a next state that passes the check. -/
def answers (o : Result) (p : State → Bool) : Bool :=
  match o with
  | .next t => p t
  | .fault _ => false
  | .refused _ => false

theorem answers_spec {o : Result} {p : State → Bool} (h : answers o p = true) : ∃ t, o = .next t ∧ p t = true := by
  cases o with
  | next t => exact ⟨t, rfl, h⟩
  | fault r => cases h
  | refused r => cases h

/-- The operation stops with this fault. -/
def faults (o : Result) (f : Fault) : Bool :=
  match o with
  | .next _ => false
  | .fault r => decide (r = f)
  | .refused _ => false

/-- The operation is refused under this name. -/
def refuses (o : Result) (f : Refusal) : Bool :=
  match o with
  | .next _ => false
  | .fault _ => false
  | .refused r => decide (r = f)

/-- `n` entries of W1 = 6 (V5). -/
def ones (n : Nat) : List Val := List.replicate n 6

/-- `n` entries of W0 = 3 (V5). -/
def zeros (n : Nat) : List Val := List.replicate n 3

/-- The toy configuration with another N. -/
def cfgN (n : Nat) : Config := { Config.toy with n := n }

/-- The start state of the vectors: after INIT and its clear, idle, BUF all W0. -/
def idleN (n : Nat) : State := { State.resetWith (cfgN n) with inited := true, genRun := true, buf := zeros n }

/-- One LED of the colour at element 0, and its transmission with the progress counter at `p`, the engine running. -/
def sendingN (n : Nat) (count p : Count) : State :=
  { idleN n with
    ledmem := [(0, 0xA5), (2, 0xFF)]
    ledCount := count
    p := p
    tx := .sending
    engine := .busy }

/-- A clear that has just begun, the engine running. -/
def clearingN (n : Nat) : State := { idleN n with tx := .clearing, engine := .busy }

/-! ### WellFormed: a term each check refuses -/

theorem test_wf_toy : Config.toy.wf = true := by decide
theorem test_wf_n_even : ({ Config.toy with n := 49 } : Config).wf = false := by decide
theorem test_wf_n_small : ({ Config.toy with n := 46 } : Config).wf = false := by decide
theorem test_wf_w0_zero : ({ Config.toy with w0 := 0 } : Config).wf = false := by decide
theorem test_wf_w1_not_above_w0 : ({ Config.toy with w1 := 3 } : Config).wf = false := by decide
theorem test_wf_w1_above_period : ({ Config.toy with w1 := 11 } : Config).wf = false := by decide
theorem test_wf_period_small : ({ Config.toy with period := 1, w0 := 1, w1 := 2 } : Config).wf = false := by decide
theorem test_wf_clear_limit_zero : ({ Config.toy with clearLimit := 0 } : Config).wf = false := by decide
theorem test_wf_clear_limit_wide : ({ Config.toy with clearLimit := 65536 } : Config).wf = false := by decide
theorem test_wf_units_wide : ({ Config.toy with maxLeds := 65534 } : Config).wf = false := by decide
theorem test_wf_slot : Instr.wf (cfgN 96) (.encodeUnit .low 1) = true ∧
    Instr.wf (cfgN 96) (.encodeUnit .low 2) = false := by decide

/-! ### Decoding: words written out from R81, R83, R85 and V18 -/

theorem test_decode_ready : decodeCmd (0b0000#4 ++ 0b101010111100#12 ++ 0b0001001000110100#16) = .ok .ready := by rfl

theorem test_decode_send : decodeCmd (0b0001#4 ++ 0b000001100100#12 ++ 0b0000000000000001#16) = .ok (.send 100 1) := by rfl

theorem test_decode_clear : decodeCmd (0b0010#4 ++ 0b000000000001#12 ++ 0b0000000000000001#16) = .ok (.clear 1 1) := by rfl

theorem test_decode_init : decodeCmd (0b0011#4 ++ 0b111111111111#12 ++ 0b1111111111111111#16) = .ok .init := by rfl

theorem test_decode_reserved : decodeCmd (0b0100#4 ++ 0b000000000000#12 ++ 0b0000000000000000#16) =
    .error (.reservedOp 4) ∧ decodeCmd 0xF0000000#32 = .error (.reservedOp 15) := by exact ⟨rfl, rfl⟩

theorem test_decode_events : decodeEvt 0b00#2 = .error .noEvent ∧ decodeEvt 0b01#2 = .ok .evHalf ∧
    decodeEvt 0b10#2 = .ok .evWrap ∧ decodeEvt 0b11#2 = .error .bothEvents := by exact ⟨rfl, rfl, rfl, rfl⟩

theorem test_encode_v18 : encode (.send 0xFFF 0xFFFF) = some (.cmd 0x1FFFFFFF#32) ∧
    encode (.clear 1 1) = some (.cmd 0x20010001#32) ∧ encode .init = some (.cmd 0x30000000#32) ∧
    encode .ready = some (.cmd 0#32) := by decide

theorem test_table_words : decodeTableWord 32 0x10640001 = some (.send 100 1) ∧
    decodeTableWord 2 0b01 = some .evHalf ∧ decodeTableWord 2 0b10 = some .evWrap ∧
    decodeTableWord 8 0b11 = none ∧ decodeTableWord 32 0x40000000 = none := by decide

/-- The word placed is the one the next step runs: INIT from reset (P1), and the two handlers (R85). -/
theorem test_placed_words :
    answers (step (State.reset.withFetchWord 32 0x30000000)) (fun t => decide (t.tx = .clearing) && t.inited) = true ∧
    answers (step ({ clearingN 48 with clrCnt := 0 }.withFetchWord 8 0b10)) (fun t => decide (t.tx = .idle)) = true ∧
    answers (step (State.reset.withFetchWord 2 0b01)) (fun t => !t.halfPend) = true ∧
    refuses (step (State.reset.withFetchWord 32 0x80000001)) (.reservedOp 0x80000001#32) = true := by decide

/-! ### The symbols (V5) -/

theorem test_symbols : sym Config.toy true = 6 ∧ sym Config.toy false = 3 ∧ bitOf Config.toy 6 = true ∧
    bitOf Config.toy 3 = false ∧ bitOf Config.toy 4 = false ∧ bitOf Config.toy 5 = true := by decide

theorem test_byte_of : byteOf Config.toy [6, 3, 6, 3, 3, 6, 3, 6] = 0xA5 ∧
    byteOf Config.toy [3, 6, 6, 6, 6, 6, 6, 3] = 0x7E := by decide

/-! ### One step of each instruction -/

/-- V6: (0xA5, 0x00, 0xFF) in the low half. -/
theorem test_encodeUnit_data : answers (exec (.encodeUnit .low 0) (sendingN 48 1 0)) (fun t =>
    decide (t.buf.take 24 = [6, 3, 6, 3, 3, 6, 3, 6] ++ zeros 8 ++ ones 8) && decide (t.p = 1)) = true := by decide

/-- V7: the dead-time case over entries that were W1, then the exhausted case. -/
theorem test_encodeUnit_dead :
    answers (exec (.encodeUnit .low 1) { sendingN 96 1 1 with buf := ones 96 }) (fun t =>
      decide (t.buf = ones 24 ++ zeros 24 ++ ones 48) && decide (t.p = 2)) = true ∧
    answers (exec (.encodeUnit .low 1) { sendingN 96 1 3 with buf := ones 96 }) (fun t =>
      decide (t.buf = ones 96) && decide (t.p = 3)) = true := by decide

/-- V8: (255, 0, 0) and a dead-time unit; then one dead-time unit and an untouched slot. -/
theorem test_encodeHalf :
    answers (exec (.encodeHalf .low) { sendingN 96 1 0 with ledmem := [(0, 255)] }) (fun t =>
      decide (t.buf = ones 8 ++ zeros 88) && decide (t.p = 2)) = true ∧
    answers (exec (.encodeHalf .high) { sendingN 96 1 2 with buf := ones 96 }) (fun t =>
      decide (t.buf = ones 48 ++ zeros 24 ++ ones 24) && decide (t.p = 3)) = true := by decide

/-- V16. -/
theorem test_engStart : answers (exec .engStart { idleN 48 with rdidx := 7, wrapPend := true }) (fun t =>
    decide (t.rdidx = 0) && !t.halfPend && !t.wrapPend && decide (t.engine = .busy)) = true := by decide

/-- R162: RDIDX and DUTY keep their values. -/
theorem test_engStop : answers (exec .engStop { clearingN 48 with rdidx := 7, duty := 6 }) (fun t =>
    decide (t.rdidx = 7) && decide (t.duty = 6) && decide (t.engine = .ready)) = true := by decide

/-- V16: transfer 24 raises the half event and transfer 48 the wrap event. -/
theorem test_engXfer_events :
    answers (exec .engXfer { clearingN 48 with rdidx := 23 }) (fun t =>
      decide (t.rdidx = 24) && t.halfPend && !t.wrapPend && decide (t.out = [3]) && decide (t.duty = 3)) = true ∧
    answers (exec .engXfer { clearingN 48 with rdidx := 47 }) (fun t =>
      decide (t.rdidx = 0) && !t.halfPend && t.wrapPend) = true := by decide

/-- V12, x = 24: the 48th transfer with HALF_PEND = 1 is Overrun; the 47th is none. -/
theorem test_engXfer_overrun :
    faults (exec .engXfer { clearingN 48 with rdidx := 47, halfPend := true }) .overrun = true ∧
    answers (exec .engXfer { clearingN 48 with rdidx := 46, halfPend := true }) (fun t =>
      decide (t.rdidx = 47)) = true := by decide

/-- V21: the first tick of a period loads 6 and drives the pin high; tick 6 of it is low; a tick with ACTIVE = 0 is low. -/
theorem test_genTick :
    answers (exec .genTick { clearingN 48 with buf := 6 :: zeros 47 }) (fun t =>
      t.pin && decide (t.duty = 6) && decide (t.tick = 1) && t.active) = true ∧
    answers (exec .genTick { clearingN 48 with tick := 6, duty := 6, active := true }) (fun t =>
      !t.pin && decide (t.tick = 7)) = true ∧
    answers (exec .genTick { clearingN 48 with tick := 4, duty := 6 }) (fun t => !t.pin) = true := by decide

/-- V21: a period that begins with the engine stopped is low, and the last tick wraps to 0. -/
theorem test_genTick_stopped :
    answers (exec .genTick { idleN 48 with duty := 6, active := true }) (fun t =>
      !t.pin && !t.active && decide (t.out = [])) = true ∧
    answers (exec .genTick { clearingN 48 with tick := 9, duty := 6, active := true }) (fun t =>
      decide (t.tick = 0)) = true := by decide

/-- V1, N48: HALF@24 with P = 2 writes the second dead-time unit; N96: HALF@48 with P = 3 stops. -/
theorem test_evHalf :
    answers (exec .evHalf { sendingN 48 1 2 with halfPend := true, buf := ones 48 }) (fun t =>
      decide (t.buf = zeros 24 ++ ones 24) && decide (t.p = 3) && decide (t.tx = .sending) && !t.halfPend) = true ∧
    answers (exec .evHalf { sendingN 96 1 3 with halfPend := true }) (fun t =>
      decide (t.tx = .idle) && decide (t.engine = .ready) && decide (t.p = 3)) = true := by decide

/-- V2, CLEAR_LIMIT = 2: the first wrap counts, the second ends the clear. -/
theorem test_evWrap :
    answers (exec .evWrap { clearingN 48 with cfg := { cfgN 48 with clearLimit := 2 }, wrapPend := true }) (fun t =>
      decide (t.clrCnt = 1) && decide (t.tx = .clearing)) = true ∧
    answers (exec .evWrap { clearingN 48 with
      cfg := { cfgN 48 with clearLimit := 2 }, wrapPend := true, clrCnt := 1 }) (fun t =>
      decide (t.clrCnt = 2) && decide (t.tx = .idle) && decide (t.engine = .ready)) = true := by decide

/-- V15. -/
theorem test_init : answers (exec .init (State.resetWith (cfgN 48))) (fun t =>
    t.inited && t.genRun && decide (t.buf = zeros 48) && decide (t.tx = .clearing) && decide (t.rdidx = 0)) = true ∧
    refuses (exec .init (idleN 48)) .alreadyInitialised = true := by decide

/-- V1, N48: the accept step of SEND 0, 1. -/
theorem test_send_accept : answers (exec (.send 0 1)
    { idleN 48 with ledmem := [(0, 255)], hphase := .waitSend, hcmd := 0x10000001#32 }) (fun t =>
    decide (t.buf = ones 8 ++ zeros 40) && decide (t.p = 2) && decide (t.tx = .sending) &&
      decide (t.hphase = .free)) = true := by decide

/-- V19 a, c: 1001 LEDs are too many; element 4095 alone is inside the space. -/
theorem test_send_argument :
    answers (exec (.send 0 1001) (idleN 48)) (fun t => decide (t.err = 0b001) && decide (t.hphase = .free)) = true ∧
    answers (exec (.send 4095 1) (idleN 48)) (fun t => decide (t.err = 0) && decide (t.hphase = .waitSend)) = true := by
  decide

/-- V19 g: CLEAR 2, 4 overlaps elements 0 to 2; CLEAR 3, 4 does not and zeroes elements 3 to 6. -/
theorem test_clear_borrow :
    faults (exec (.clear 2 4) (sendingN 48 3 2)) (.borrowViolation (.clear 2 4)) = true ∧
    answers (exec (.clear 3 4) { sendingN 48 3 2 with ledmem := [(8, 9), (9, 9), (20, 9), (21, 9)] }) (fun t =>
      decide (t.ledmem = [(8, 9), (21, 9)]) && decide (t.hphase = .waitClear)) = true := by decide

/-- V14 d: the accept step fills the whole buffer. -/
theorem test_clear_accept : answers (exec (.clear 0 1)
    { idleN 96 with buf := ones 96, hphase := .waitClear, hcmd := 0x20000001#32, clrCnt := 1 }) (fun t =>
    decide (t.buf = zeros 96) && decide (t.clrCnt = 0) && decide (t.tx = .clearing)) = true := by decide

/-- V20: 1 while idle, 0 while sending. -/
theorem test_ready : answers (exec .ready (idleN 48)) (fun t => decide (t.result = some true)) = true ∧
    answers (exec .ready (sendingN 48 1 2)) (fun t => decide (t.result = some false)) = true := by decide

/-- R131: WAIT is over when READY answers 1, and comes again when it answers 0. -/
theorem test_wait : answers (exec .wait (idleN 48)) (fun t => decide (t.script = [])) = true ∧
    answers (exec .wait (sendingN 48 1 2)) (fun t => decide (t.script = [.wait])) = true := by decide

/-- V19 g: LEDW 1 is in the borrowed range; LEDW 3 is a plain store of three bytes. -/
theorem test_ledw :
    faults (exec (.ledw 1 9 9 9) (sendingN 48 3 2)) (.borrowViolation (.ledw 1 9 9 9)) = true ∧
    answers (exec (.ledw 3 7 8 9) (sendingN 48 3 2)) (fun t =>
      decide (t.ledmem = [(0, 0xA5), (2, 0xFF), (9, 7), (10, 8), (11, 9)])) = true := by decide

/-! ### Witnesses: for every obligation with hypotheses, operands and a state that meet them, at the ends of each clause -/

/-- A HOST that holds SEND 0, 1 at the port. -/
def waitingSend (s : State) : State := { s with hphase := .waitSend, hcmd := 0x10000001#32 }

/-- A HOST that holds CLEAR 0, 1 at the port. -/
def waitingClear (s : State) : State := { s with hphase := .waitClear, hcmd := 0x20000001#32 }

/-- The engine between two entries of a clear, the event flags as given. -/
def engineAt (rdidx : Nat) (half wrap : Bool) : State :=
  { clearingN 48 with rdidx := rdidx, halfPend := half, wrapPend := wrap }

theorem witness_EncodeThenDecode : (∃ e, encode (.send 0xFFF 0xFFFF) = some e) ∧ (∃ e, encode .ready = some e) ∧
    ∃ e, encode .evWrap = some e := ⟨⟨_, rfl⟩, ⟨_, rfl⟩, ⟨_, rfl⟩⟩

theorem witness_DecodeThenEncode : decodeCmd 0x1FFFFFFF#32 = .ok (.send 0xFFF 0xFFFF) ∧
    decodeCmd 0x0ABC1234#32 = .ok .ready := ⟨rfl, rfl⟩

theorem witness_ReservedOpRefused : (4 ≤ (0x40000000#32).toNat / 2 ^ 28 ∧ 4 ≤ (0xFFFFFFFF#32).toNat / 2 ^ 28 ∧
    (0x3FFFFFFF#32).toNat / 2 ^ 28 < 4) ∧
    ∃ s : State, s.cfg.wf = true ∧ s.hphase = .free ∧ s.script = .word 0x40000000#32 :: [] ∧ s.turns = .host :: [] :=
  ⟨by decide, { idleN 48 with script := [.word 0x40000000#32], turns := [.host] }, by decide, rfl, rfl, rfl⟩

theorem witness_EventVectorSelectsHandler : ((engineAt 0 false false).wrapPend = false ∧
    (engineAt 0 false false).halfPend = false) ∧ ((engineAt 0 true false).wrapPend = false ∧
    (engineAt 0 true false).halfPend = true) ∧ ((engineAt 0 false true).wrapPend = true ∧
    (engineAt 0 false true).halfPend = false) ∧ ((engineAt 0 true true).wrapPend = true ∧
    (engineAt 0 true true).halfPend = true) := by decide

theorem witness_UnitDecodesToColour : (cfgN 60).wf = true := by decide

/-- The last LED of the array, in the last element of the LED space and the last slot of the half. -/
theorem witness_EncodeUnitDataCase : ∃ s : State, s.cfg.wf = true ∧ 1 < s.cfg.k ∧ s.buf.length = s.cfg.n ∧
    s.p.toNat < s.ledCount.toNat ∧ s.ledBase.toNat + s.p.toNat < ledmemSize :=
  ⟨{ sendingN 96 3 2 with ledBase := 4093 }, by decide, by decide, by decide, by decide, by decide⟩

/-- The hypotheses of the dead-time case, for slot 1 of a half. -/
abbrev DeadTimeCase (s : State) : Prop :=
  s.cfg.wf = true ∧ 1 < s.cfg.k ∧ s.buf.length = s.cfg.n ∧ s.ledCount.toNat ≤ s.p.toNat ∧
  s.p.toNat < s.ledCount.toNat + s.cfg.d ∧ s.ledCount.toNat + s.cfg.d < 2 ^ 16

/-- The first and the last dead-time unit. -/
theorem witness_EncodeUnitDeadTimeCase : DeadTimeCase (sendingN 96 1 1) ∧ DeadTimeCase (sendingN 96 1 2) :=
  ⟨by decide, by decide⟩

theorem witness_EncodeUnitExhaustedCase : (sendingN 96 1 3).cfg.wf = true ∧ 1 < (sendingN 96 1 3).cfg.k ∧
    (sendingN 96 1 3).ledCount.toNat + (sendingN 96 1 3).cfg.d ≤ (sendingN 96 1 3).p.toNat := by decide

/-- The hypotheses about ENCODE_HALF. -/
abbrev EncodeHalfCase (s : State) : Prop := s.cfg.wf = true ∧ s.buf.length = s.cfg.n ∧ TransmissionOk s

/-- With units left (P = 2 of 3, so that slot 0 is written and slot 1 is not), and with none left (P = 3). -/
theorem witness_EncodeHalfWritesUnits :
    (EncodeHalfCase (sendingN 96 1 2) ∧ (sendingN 96 1 2).p.toNat < totalUnits (sendingN 96 1 2)) ∧
    EncodeHalfCase (sendingN 96 1 3) ∧ totalUnits (sendingN 96 1 3) ≤ (sendingN 96 1 3).p.toNat :=
  ⟨⟨by decide, by decide⟩, by decide, by decide⟩

theorem witness_EncodeHalfFrame : ∃ t, exec (.encodeHalf .high) (sendingN 96 1 0) = .next t :=
  (answers_spec (p := fun _ => true) (by decide)).imp fun _ h => h.1

theorem witness_EngStartEffect : (idleN 48).cfg.wf = true := by decide

theorem witness_EngStopEffect : (clearingN 48).cfg.wf = true := by decide

/-- In the middle of a half, with a flag set, and at both boundaries, with none. -/
theorem witness_EngXferEffect : ∀ s ∈ [engineAt 5 true false, engineAt 23 false false, engineAt 47 false false],
    s.cfg.wf = true ∧ s.engine = .busy ∧ s.genRun = true ∧ s.buf[s.rdidx]? = some 3 ∧
    (((s.rdidx + 1) % s.cfg.n = s.cfg.half ∨ (s.rdidx + 1) % s.cfg.n = 0) →
      s.halfPend = false ∧ s.wrapPend = false) := by decide

theorem witness_EventsAtHalfBoundaries : ∀ i ∈ [0, 22, 23, 24, 46, 47],
    (engineAt i false false).rdidx < (engineAt i false false).cfg.n ∧
    ∃ t, exec .engXfer (engineAt i false false) = .next t := by
  have h : ∀ i ∈ [0, 22, 23, 24, 46, 47], (engineAt i false false).rdidx < (engineAt i false false).cfg.n ∧
      answers (exec .engXfer (engineAt i false false)) (fun _ => true) = true := by decide
  exact fun i hi => ⟨(h i hi).1, (answers_spec (h i hi).2).imp fun _ h => h.1⟩

/-- Late at both boundaries, in time at one, and at the first tick of a period. -/
theorem witness_OverrunExactlyWhenLate : (∀ s ∈ [engineAt 23 false true, engineAt 47 true false],
    s.cfg.wf = true ∧ s.engine = .busy ∧ s.genRun = true ∧ s.tick = 0 ∧
      faults (exec .engXfer s) .overrun = true ∧ faults (exec .genTick s) .overrun = true) ∧
    faults (exec .engXfer (engineAt 23 false false)) .overrun = false := by decide

/-- A whole low half, a whole high half, and no transfer at all. -/
theorem witness_TransfersStreamTheHalf : ∀ x ∈ [(0, 24), (24, 24), (5, 0)],
    (engineAt x.1 false false).cfg.wf = true ∧ RegsInRange (engineAt x.1 false false) ∧
    (engineAt x.1 false false).engine = .busy ∧ (engineAt x.1 false false).genRun = true ∧
    (engineAt x.1 false false).halfPend = false ∧ (engineAt x.1 false false).wrapPend = false ∧
    (engineAt x.1 false false).rdidx + x.2 ≤
      (if (engineAt x.1 false false).rdidx < (engineAt x.1 false false).cfg.half
        then (engineAt x.1 false false).cfg.half else (engineAt x.1 false false).cfg.n) := by decide

/-- A later tick, the first tick with the engine stopped, and the first tick with it running. -/
theorem witness_GenTickEffect : (∀ s ∈ [{ clearingN 48 with tick := 9 }, idleN 48, engineAt 23 false false],
    s.cfg.wf = true ∧ s.genRun = true) ∧ ({ clearingN 48 with tick := 9 } : State).tick ≠ 0 ∧
    ((idleN 48).tick = 0 ∧ (idleN 48).engine = .ready) ∧
    ((engineAt 23 false false).tick = 0 ∧ (engineAt 23 false false).engine = .busy ∧
      (engineAt 23 false false).buf[(engineAt 23 false false).rdidx]? = some 3 ∧
      (engineAt 23 false false).halfPend = false ∧ (engineAt 23 false false).wrapPend = false) ∧
    (((engineAt 47 true false).rdidx + 1) % (engineAt 47 true false).cfg.n = 0 ∧
      (engineAt 47 true false).tick = 0 ∧ (engineAt 47 true false).halfPend = true) := by decide

/-- A period that begins while an event is pending, and one whose transfer raises one; and a period of the stopped engine. -/
theorem witness_OnePeriodOnePulse : (∀ s ∈ [engineAt 5 true false, engineAt 23 false false, engineAt 47 false false],
    s.cfg.wf = true ∧ s.genRun = true ∧ s.engine = .busy ∧ s.tick = 0 ∧ s.buf[s.rdidx]? = some 3 ∧
    (((s.rdidx + 1) % s.cfg.n = s.cfg.half ∨ (s.rdidx + 1) % s.cfg.n = 0) →
      s.halfPend = false ∧ s.wrapPend = false)) ∧
    (idleN 48).cfg.wf = true ∧ (idleN 48).genRun = true ∧ (idleN 48).engine = .ready ∧ (idleN 48).tick = 0 := by decide

/-- The states of the clauses about the half-consumed event. -/
def halfEvent (p : Count) (tx : TxState) : State := { sendingN 48 1 p with tx := tx, halfPend := true }

theorem witness_EvHalfEffect : (∀ s ∈ [halfEvent 2 .sending, halfEvent 3 .sending, halfEvent 0 .done,
    halfEvent 0 .idle, halfEvent 0 .clearing], s.cfg.wf = true ∧ s.halfPend = true) ∧
    ((halfEvent 2 .sending).p.toNat < (halfEvent 2 .sending).ledCount.toNat + (halfEvent 2 .sending).cfg.d ∧
      TransmissionOk (halfEvent 2 .sending)) ∧
    (halfEvent 3 .sending).ledCount.toNat + (halfEvent 3 .sending).cfg.d ≤ (halfEvent 3 .sending).p.toNat := by decide

/-- The states of the clauses about the wrap event, with CLEAR_LIMIT = 2. -/
def wrapEvent (p cycles : Count) (tx : TxState) : State :=
  { sendingN 48 1 p with tx := tx, wrapPend := true, clrCnt := cycles, cfg := { cfgN 48 with clearLimit := 2 } }

theorem witness_EvWrapEffect : (∀ s ∈ [wrapEvent 2 0 .sending, wrapEvent 3 0 .sending, wrapEvent 0 0 .done,
    wrapEvent 0 0 .idle, wrapEvent 0 0 .clearing, wrapEvent 0 1 .clearing, wrapEvent 0 0xFFFF .clearing],
      s.cfg.wf = true ∧ s.wrapPend = true) ∧
    ((wrapEvent 2 0 .sending).p.toNat < (wrapEvent 2 0 .sending).ledCount.toNat + (wrapEvent 2 0 .sending).cfg.d ∧
      TransmissionOk (wrapEvent 2 0 .sending)) ∧
    (wrapEvent 3 0 .sending).ledCount.toNat + (wrapEvent 3 0 .sending).cfg.d ≤ (wrapEvent 3 0 .sending).p.toNat ∧
    (wrapEvent 0 0 .clearing).clrCnt.toNat + 1 < (wrapEvent 0 0 .clearing).cfg.clearLimit ∧
    (wrapEvent 0 1 .clearing).cfg.clearLimit ≤ (wrapEvent 0 1 .clearing).clrCnt.toNat + 1 ∧
    (wrapEvent 0 0xFFFF .clearing).cfg.clearLimit ≤ (wrapEvent 0 0xFFFF .clearing).clrCnt.toNat + 1 := by decide

theorem witness_HandlerFrame : (∃ t, exec .evHalf (halfEvent 2 .sending) = .next t) ∧
    ∃ t, exec .evWrap (wrapEvent 0 1 .clearing) = .next t :=
  ⟨(answers_spec (p := fun _ => true) (by decide)).imp fun _ h => h.1,
    (answers_spec (p := fun _ => true) (by decide)).imp fun _ h => h.1⟩

theorem witness_InitEffect : (State.reset.cfg.wf = true ∧ State.reset.inited = false ∧ State.reset.hphase = .free) ∧
    (idleN 48).cfg.wf = true ∧ (idleN 48).inited = true := by decide

theorem witness_OnlyInitBeforeInit : State.reset.cfg.wf = true ∧ State.reset.inited = false ∧
    State.reset.hphase = .free := by decide

theorem witness_BadConfigurationRefused : (idleN 50).cfg.wf = true ∧ (idleN 47).cfg.wf = false := by decide

/-- One LED too many, and one element past the space. -/
theorem witness_InvalidArgumentOnlySetsErr : (sendingN 48 1 2).cfg.wf = true ∧ (sendingN 48 1 2).inited = true ∧
    (sendingN 48 1 2).hphase = .free ∧ (sendingN 48 1 2).cfg.maxLeds < (1001#16).toNat ∧
    ledmemSize < (4095#12).toNat + (2#16).toNat := by decide

/-- A state with NONBLOCKING, sending. -/
def nonblockingBusy : State := { sendingN 48 1 2 with cfg := { cfgN 48 with nonblocking := true } }

theorem witness_BusyOnlyWhenNonblocking : (nonblockingBusy.cfg.wf = true ∧ nonblockingBusy.inited = true ∧
    nonblockingBusy.hphase = .free ∧ (1000#16).toNat ≤ nonblockingBusy.cfg.maxLeds ∧
    (3096#12).toNat + (1000#16).toNat ≤ ledmemSize ∧ nonblockingBusy.cfg.nonblocking = true ∧
    (nonblockingBusy.tx ≠ .idle ∨ nonblockingBusy.engine ≠ .ready)) ∧ (idleN 48).cfg.nonblocking = false ∧
    answers (exec .ready (idleN 48)) (fun _ => true) = true := by decide

/-- The largest array, presented while sending without NONBLOCKING, and while idle with it. -/
theorem witness_SendPresented : ∀ s ∈ [sendingN 48 1 2, { idleN 48 with cfg := { cfgN 48 with nonblocking := true } }],
    s.cfg.wf = true ∧ s.inited = true ∧ s.hphase = .free ∧ (1000#16).toNat ≤ s.cfg.maxLeds ∧
    (3096#12).toNat + (1000#16).toNat ≤ ledmemSize ∧
    (s.cfg.nonblocking = false ∨ (s.tx = .idle ∧ s.engine = .ready)) := by decide

/-- The array next to the borrowed one, while sending. -/
theorem witness_ClearPresented : (sendingN 48 3 2).cfg.wf = true ∧ (sendingN 48 3 2).inited = true ∧
    (sendingN 48 3 2).hphase = .free ∧ Memory.Wf (sendingN 48 3 2).ledmem ∧
    (4#16).toNat ≤ (sendingN 48 3 2).cfg.maxLeds ∧ (3#12).toNat + (4#16).toNat ≤ ledmemSize ∧
    (sendingN 48 3 2).cfg.nonblocking = false ∧
    ¬((sendingN 48 3 2).tx = .sending ∧ 0 < (4#16).toNat ∧ 0 < (sendingN 48 3 2).ledCount.toNat ∧
      (3#12).toNat < (sendingN 48 3 2).ledBase.toNat + (sendingN 48 3 2).ledCount.toNat ∧
      (sendingN 48 3 2).ledBase.toNat < (3#12).toNat + (4#16).toNat) := by decide

/-- CLEAR 2, 4 shares element 2 with the array being sent; CLEAR 3, 4 shares none; LEDW 2 is inside, LEDW 3 is not. -/
theorem witness_BorrowViolationOnOverlap : ((sendingN 48 3 2).cfg.wf = true ∧ (sendingN 48 3 2).hphase = .free ∧
    (sendingN 48 3 2).tx = .sending ∧ (sendingN 48 3 2).inited = true ∧
    (sendingN 48 3 2).cfg.nonblocking = false ∧ (4#16).toNat ≤ (sendingN 48 3 2).cfg.maxLeds ∧
    (2#12).toNat + (4#16).toNat ≤ ledmemSize) ∧
    faults (exec (.clear 2 4) (sendingN 48 3 2)) (.borrowViolation (.clear 2 4)) = true ∧
    faults (exec (.clear 3 4) (sendingN 48 3 2)) (.borrowViolation (.clear 3 4)) = false ∧
    faults (exec (.ledw 2 1 1 1) (sendingN 48 3 2)) (.borrowViolation (.ledw 2 1 1 1)) = true ∧
    faults (exec (.ledw 3 1 1 1) (sendingN 48 3 2)) (.borrowViolation (.ledw 3 1 1 1)) = false := by decide

theorem witness_SendAccepted : (waitingSend (idleN 60)).cfg.wf = true ∧ (waitingSend (idleN 60)).inited = true ∧
    (waitingSend (idleN 60)).hphase = .waitSend ∧ (waitingSend (idleN 60)).hcmd = sendWord 0 1 ∧
    (waitingSend (idleN 60)).tx = .idle ∧ (waitingSend (idleN 60)).engine = .ready ∧
    (waitingSend (idleN 60)).buf.length = (waitingSend (idleN 60)).cfg.n ∧ (0#12).toNat + (1#16).toNat ≤ ledmemSize ∧
    (1#16).toNat + (waitingSend (idleN 60)).cfg.d < 2 ^ 16 := by decide

theorem witness_ClearAccepted : (waitingClear (idleN 48)).cfg.wf = true ∧ (waitingClear (idleN 48)).inited = true ∧
    (waitingClear (idleN 48)).hphase = .waitClear ∧ (waitingClear (idleN 48)).hcmd = clearWord 0 1 ∧
    (waitingClear (idleN 48)).tx = .idle ∧ (waitingClear (idleN 48)).engine = .ready := by decide

theorem witness_WaitingHostSpins : (∀ s ∈ [waitingSend (sendingN 48 1 2), waitingClear (sendingN 48 1 2)],
    s.cfg.wf = true ∧ s.inited = true ∧ ¬(s.tx = .idle ∧ s.engine = .ready) ∧ s.engine = .busy ∧ s.genRun = true) ∧
    (waitingSend (sendingN 48 1 2)).hphase = .waitSend ∧ (waitingSend (sendingN 48 1 2)).hcmd = sendWord 0 1 ∧
    (waitingClear (sendingN 48 1 2)).hphase = .waitClear ∧ (waitingClear (sendingN 48 1 2)).hcmd = clearWord 0 1 := by
  decide

/-- The engine busy with the generator stopped, with a time limit for the wait or without. -/
def stalled (limit : Option Nat) : State :=
  { sendingN 48 1 2 with genRun := false, cfg := { cfgN 48 with eventTimeout := limit } }

theorem witness_StalledEngineEndsTheWait : (∀ l ∈ [some 100, none], ∀ s ∈ [waitingSend (stalled l),
    waitingClear (stalled l)], s.cfg.wf = true ∧ s.inited = true ∧ s.engine = .busy ∧ s.genRun = false ∧
      s.cfg.eventTimeout = l ∧ s.halfPend = false ∧ s.wrapPend = false) ∧
    (waitingSend (stalled none)).hphase = .waitSend ∧ (waitingSend (stalled none)).hcmd = sendWord 0 1 ∧
    (waitingClear (stalled none)).hphase = .waitClear ∧ (waitingClear (stalled none)).hcmd = clearWord 0 1 ∧
    faults (exec (.send 0 1) (waitingSend (stalled none))) .stuck = true := by decide

theorem witness_RunningEngineNeverStuck : ∃ t, (waitingSend (sendingN 48 1 2)).engine = .busy ∧
    (waitingSend (sendingN 48 1 2)).genRun = true ∧ exec (.send 0 1) (waitingSend (sendingN 48 1 2)) = .next t := by
  obtain ⟨t, h, -⟩ := answers_spec (o := exec (.send 0 1) (waitingSend (sendingN 48 1 2))) (p := fun _ => true) (by decide)
  exact ⟨t, rfl, rfl, h⟩

theorem witness_ReadyAnswersIdle : ((sendingN 48 1 2).cfg.wf = true ∧ (sendingN 48 1 2).inited = true ∧
    (sendingN 48 1 2).hphase = .free) ∧ State.reset.cfg.wf = true ∧ State.reset.inited = false := by decide

theorem witness_WaitRepeatsReady : (∀ s ∈ [idleN 48, sendingN 48 1 2], s.cfg.wf = true ∧ s.inited = true ∧
    s.hphase = .free) ∧ (idleN 48).tx = .idle ∧ (sendingN 48 1 2).tx ≠ .idle := by decide

/-- Next to the borrowed array, while sending, and its last element. -/
theorem witness_LedwStores : (sendingN 48 3 2).cfg.wf = true ∧ (sendingN 48 3 2).hphase = .free ∧
    Memory.Wf (sendingN 48 3 2).ledmem ∧ ¬((sendingN 48 3 2).tx = .sending ∧
      (sendingN 48 3 2).ledBase.toNat ≤ (3#12).toNat ∧
      (3#12).toNat < (sendingN 48 3 2).ledBase.toNat + (sendingN 48 3 2).ledCount.toNat) ∧
    ((sendingN 48 3 2).tx = .sending ∧ (sendingN 48 3 2).ledBase.toNat ≤ (2#12).toNat ∧
      (2#12).toNat < (sendingN 48 3 2).ledBase.toNat + (sendingN 48 3 2).ledCount.toNat) := by decide

theorem witness_FalseGuardRefused : (idleN 48).cfg.wf = true ∧ (idleN 48).halfPend = false ∧
    (idleN 48).wrapPend = false ∧ (idleN 48).engine = .ready ∧ (stalled none).genRun = false ∧
    (idleN 48).cfg.k ≤ 1 ∧ (waitingSend (idleN 48)).hphase ≠ .free ∧ (waitingSend (idleN 48)).inited = true ∧
    (waitingSend State.reset).hphase ≠ .free ∧ (waitingSend State.reset).inited = false ∧
    (waitingSend State.reset).cfg.wf = true ∧ (waitingSend (idleN 48)).hcmd ≠ sendWord 0 2 ∧
    (waitingClear (idleN 48)).hphase = .waitClear ∧ (waitingClear (idleN 48)).hcmd ≠ clearWord 0 2 := by decide

theorem witness_OnlyHostMovesAfterReset : (State.reset.engine = .ready ∧ State.reset.halfPend = false ∧
    State.reset.wrapPend = false ∧ State.reset.genRun = false) ∧ (cfgN 96).wf = true := by decide

/-- A chip whose unspecified items hold something else than 0 after power-on. -/
def otherReset : State :=
  { State.resetWith (cfgN 48) with
    p := 7
    clrCnt := 9
    ledBase := 4095
    ledCount := 0xFFFF
    duty := 5
    rdidx := 47
    buf := ones 48
    tick := 9
    ledmem := [(0, 0xA5)]
    hcmd := 0xFFFFFFFF }

theorem witness_ResetMeetsInvariant : (otherReset.cfg.wf = true ∧ RegsInRange otherReset ∧ Memory.Wf otherReset.ledmem ∧
    otherReset.tx = .idle ∧ otherReset.engine = .ready ∧ otherReset.halfPend = false ∧ otherReset.wrapPend = false ∧
    otherReset.inited = false ∧ otherReset.genRun = false ∧ otherReset.hphase = .free) ∧ (cfgN 96).wf = true := by decide

/-- One state for every clause: the turn, what the agent fetches, and a legal configuration. -/
theorem witness_StepRunsFetchedInstruction :
    (∃ s : State, s.cfg.wf = true ∧ s.turns = .host :: [] ∧ s.hphase = .free ∧ s.script = .word 0x10000001#32 :: [] ∧
      decodeCmd 0x10000001#32 = .ok (.send 0 1)) ∧
    (∃ s : State, s.cfg.wf = true ∧ s.turns = .host :: [] ∧ s.hphase ≠ .free ∧ decodeCmd s.hcmd = .ok (.send 0 1)) ∧
    (∃ s : State, s.cfg.wf = true ∧ s.turns = .host :: [] ∧ s.hphase = .free ∧ s.script = .wait :: []) ∧
    (∃ s : State, s.cfg.wf = true ∧ s.turns = .host :: [] ∧ s.hphase = .free ∧ s.script = .ledw 1 2 3 4 :: []) ∧
    (∃ s : State, s.cfg.wf = true ∧ s.turns = .handler :: [] ∧ decodeEvt (eventVector s) = .ok .evWrap) ∧
    (∃ s : State, s.cfg.wf = true ∧ s.turns = .engine :: [] ∧ s.cfg.level = .period ∧ s.engine = .busy ∧
      s.genRun = true) ∧
    ∃ s : State, s.cfg.wf = true ∧ s.turns = .generator :: [] ∧ s.cfg.level = .tick ∧ s.genRun = true :=
  ⟨⟨{ idleN 48 with turns := [.host], script := [.word 0x10000001#32] }, by decide, rfl, rfl, rfl, rfl⟩,
    ⟨{ waitingSend (idleN 48) with turns := [.host] }, by decide, rfl, by decide, rfl⟩,
    ⟨{ idleN 48 with turns := [.host], script := [.wait] }, by decide, rfl, rfl, rfl⟩,
    ⟨{ idleN 48 with turns := [.host], script := [.ledw 1 2 3 4] }, by decide, rfl, rfl, rfl⟩,
    ⟨{ wrapEvent 3 0 .sending with turns := [.handler] }, by decide, rfl, rfl⟩,
    ⟨{ clearingN 48 with turns := [.engine] }, by decide, rfl, rfl, rfl, rfl⟩,
    ⟨{ idleN 48 with turns := [.generator], cfg := { cfgN 48 with level := .tick } }, by decide, rfl, rfl, rfl⟩⟩

/-! ### Witnesses of the whole-machine statements -/

/-- A send whose half-consumed event is pending and whose handler has the next turn; N = 60, so that there is slack. -/
def midSend : State := { sendingN 60 1 2 with rdidx := 30, halfPend := true, turns := [.handler] }

/-- A clear whose last event is pending and whose handler has the next turn. -/
def lastCycle : State := { clearingN 60 with wrapPend := true, turns := [.handler] }

theorem midSend_inv : Inv midSend where
  config := by decide
  regs := by decide
  memory := by decide
  control := by decide
  events := by decide
  buffer := ⟨fun _ _ h => .inl (List.eq_of_mem_replicate h), fun _ _ h => List.eq_of_mem_replicate h⟩
  counters := by decide
  port := by decide

theorem lastCycle_inv : Inv lastCycle where
  config := by decide
  regs := by decide
  memory := by decide
  control := by decide
  events := by decide
  buffer := ⟨fun _ _ h => .inl (List.eq_of_mem_replicate h), fun _ _ h => List.eq_of_mem_replicate h⟩
  counters := by decide
  port := by decide

theorem midSend_steps : ∃ t, step midSend = .next t ∧ (decide (t.tx = .sending) && decide (t.p = 3)) = true :=
  answers_spec (by decide)

theorem lastCycle_steps : ∃ t, step lastCycle = .next t ∧ (decide (t.tx = .idle) && decide (t.clrCnt = 1)) = true :=
  answers_spec (by decide)

theorem midSend_slack : SlackOk midSend := by
  have h : ∀ h : Half, ∀ i < 6, midSend.buf[halfBase midSend.cfg h + unitSize * midSend.cfg.k + i]? = some 3 := by
    intro h
    cases h <;> decide
  intro _ hf i h1 h2
  have hlen : halfBase midSend.cfg hf + midSend.cfg.half = halfBase midSend.cfg hf + unitSize * midSend.cfg.k + 6 := rfl
  have := h hf (i - (halfBase midSend.cfg hf + unitSize * midSend.cfg.k)) (by omega)
  rwa [Nat.add_sub_cancel' h1] at this

theorem witness_StepKeepsInvariant : (∃ t, Inv midSend ∧ step midSend = .next t) ∧
    ∃ t, Inv lastCycle ∧ step lastCycle = .next t :=
  ⟨midSend_steps.imp fun _ h => ⟨midSend_inv, h.1⟩, lastCycle_steps.imp fun _ h => ⟨lastCycle_inv, h.1⟩⟩

/-- A store of the byte 9 and one of the byte an unlisted address reads as. -/
theorem witness_MemoryStaysCanonical : ∃ t, Memory.Wf (sendingN 48 3 2).ledmem ∧
    exec (.ledw 3 0 9 0) (sendingN 48 3 2) = .next t := by
  obtain ⟨t, h, -⟩ := answers_spec (o := exec (.ledw 3 0 9 0) (sendingN 48 3 2)) (p := fun _ => true) (by decide)
  exact ⟨t, by decide, h⟩

theorem witness_SlackStaysLogicalZero : ∃ t, Inv midSend ∧ SlackOk midSend ∧ step midSend = .next t :=
  midSend_steps.imp fun _ h => ⟨midSend_inv, midSend_slack, h.1⟩

theorem witness_BlankBufferStaysBlank : ∃ t, lastCycle.tx ≠ .sending ∧ t.tx ≠ .sending ∧ step lastCycle = .next t ∧
    ∀ v ∈ lastCycle.buf, v = lastCycle.cfg.w0 := by
  obtain ⟨t, h, ht⟩ := answers_spec (o := step lastCycle) (p := fun t => decide (t.tx = .idle)) (by decide)
  have ht : t.tx = .idle := by simpa using ht
  exact ⟨t, by decide, by simp [ht], h, fun _ h => List.eq_of_mem_replicate h⟩

theorem witness_DoneNeverVisible : ∃ t, midSend.tx ≠ .done ∧ step midSend = .next t :=
  midSend_steps.imp fun _ h => ⟨by decide, h.1⟩

theorem witness_TransitionTable : ∃ t, ControlOk lastCycle ∧ exec .evWrap lastCycle = .next t := by
  obtain ⟨t, h, -⟩ := answers_spec (o := exec .evWrap lastCycle) (p := fun _ => true) (by decide)
  exact ⟨t, by decide, h⟩

theorem witness_ErrStickyConfigurationFixed : ∃ t, step { midSend with err := 0b101 } = .next t ∧
    ({ midSend with err := 0b101 } : State).err.getLsbD 0 = true ∧
    ({ midSend with err := 0b101 } : State).err.getLsbD 2 = true := by
  obtain ⟨t, h, -⟩ := answers_spec (o := step { midSend with err := 0b101 }) (p := fun _ => true) (by decide)
  exact ⟨t, h, by decide, by decide⟩

theorem witness_InitedSetOnlyByInit : (∃ t, exec .init State.reset = .next t) ∧ ∃ t, exec .ready (idleN 48) = .next t :=
  ⟨(answers_spec (p := fun _ => true) (by decide)).imp fun _ h => h.1,
    (answers_spec (p := fun _ => true) (by decide)).imp fun _ h => h.1⟩

/-- A transfer, a tick that makes one, and two ticks that make none. -/
theorem witness_OutGrowsOnlyByTransfers : (∃ t, exec .engXfer (clearingN 48) = .next t) ∧
    (∃ t, exec .genTick (clearingN 48) = .next t ∧ (clearingN 48).tick = 0 ∧ (clearingN 48).engine = .busy) ∧
    (∃ t, exec .genTick { clearingN 48 with tick := 1 } = .next t) ∧ ∃ t, exec .genTick (idleN 48) = .next t :=
  ⟨(answers_spec (p := fun _ => true) (by decide)).imp fun _ h => h.1,
    (answers_spec (p := fun _ => true) (by decide)).imp fun _ h => ⟨h.1, rfl, rfl⟩,
    (answers_spec (p := fun _ => true) (by decide)).imp fun _ h => h.1,
    (answers_spec (p := fun _ => true) (by decide)).imp fun _ h => h.1⟩

/-- P falls from 5 to 2 at the accept step, and rises from 2 to 3 at EV_HALF. -/
theorem witness_ProgressFallsOnlyAtSend :
    (totalUnits (waitingSend { idleN 48 with p := 5 }) < 2 ^ 16 ∧
      ∃ t, exec (.send 0 1) (waitingSend { idleN 48 with p := 5 }) = .next t ∧ decide (t.p = 2) = true) ∧
    totalUnits midSend < 2 ^ 16 ∧ ∃ t, exec .evHalf midSend = .next t ∧ decide (t.p = 3) = true :=
  ⟨⟨by decide, answers_spec (by decide)⟩, by decide, answers_spec (by decide)⟩

/-- CLEAR presented and CLEAR accepted, LEDW, and an operation that stores nothing. -/
theorem witness_LedSpaceFrame : (∃ t, exec (.clear 3 4) (sendingN 48 3 2) = .next t ∧
    (sendingN 48 3 2).hphase = .free) ∧
    (∃ t, exec (.clear 0 1) (waitingClear (idleN 48)) = .next t ∧ (waitingClear (idleN 48)).hphase ≠ .free) ∧
    (∃ t, exec (.ledw 3 1 2 3) (sendingN 48 3 2) = .next t) ∧ ∃ t, exec .ready (idleN 48) = .next t :=
  ⟨(answers_spec (p := fun _ => true) (by decide)).imp fun _ h => ⟨h.1, rfl⟩,
    (answers_spec (p := fun _ => true) (by decide)).imp fun _ h => ⟨h.1, by decide⟩,
    (answers_spec (p := fun _ => true) (by decide)).imp fun _ h => h.1,
    (answers_spec (p := fun _ => true) (by decide)).imp fun _ h => h.1⟩

theorem witness_CallerNeverWritesWhileBusy : ∃ t, (Instr.clear 3 4).format = .cmd ∧ Instr.clear 3 4 ≠ .init ∧
    (sendingN 48 3 2).tx ≠ .idle ∧ exec (.clear 3 4) (sendingN 48 3 2) = .next t := by
  obtain ⟨t, h, -⟩ := answers_spec (o := exec (.clear 3 4) (sendingN 48 3 2)) (p := fun _ => true) (by decide)
  exact ⟨t, rfl, by decide, by decide, h⟩

/-- V1, N96 (E = 1) and V10's shape, N48 (E = 4); the accept step has encoded the first 2K units. -/
theorem witness_SendLastsEHalves : (∀ s ∈ [sendingN 96 1 3, sendingN 48 3 2], s.cfg.wf = true ∧ RegsInRange s ∧
    TransmissionOk s ∧ s.tx = .sending ∧ s.engine = .busy ∧ s.genRun = true ∧ s.rdidx = 0 ∧ s.halfPend = false ∧
    s.wrapPend = false ∧ s.p.toNat = min (2 * s.cfg.k) (totalUnits s)) ∧
    endEvent (cfgN 96) (totalUnits (sendingN 96 1 3)) = 1 ∧ endEvent (cfgN 48) (totalUnits (sendingN 48 3 2)) = 4 := by
  decide

/-- The hypotheses about a held SEND of `count` LEDs from element 0. -/
abbrev HeldSend (s : State) (count : Count) : Prop :=
  s.cfg.wf = true ∧ RegsInRange s ∧ s.inited = true ∧ s.genRun = true ∧ s.hphase = .waitSend ∧
  s.hcmd = sendWord 0 count ∧ s.tx = .idle ∧ s.engine = .ready ∧
  (0#12).toNat + count.toNat ≤ ledmemSize ∧ count.toNat + s.cfg.d < 2 ^ 16

theorem idleN60_slack : SlackOk (waitingSend (idleN 60)) := fun _ h _ h1 h2 => by
  have h60 : halfBase (idleN 60).cfg h + 30 ≤ 60 := by cases h <;> decide
  show (List.replicate 60 3)[_]? = some 3
  exact List.getElem?_replicate_of_lt (Nat.lt_of_lt_of_le h2 h60)

/-- SEND 0, 1 with slack in each half: D = 2 ≥ K = 1, E = 2, and the slots emitted are a data unit and a dead-time unit. SEND
0, 0 with K = 4: E = 1, and slots 2 and 3 of the half emitted are stale. -/
theorem witness_SendStreamsTheFrame : (HeldSend (waitingSend (idleN 60)) 1 ∧
    endEvent (cfgN 60) ((1#16).toNat + (cfgN 60).d) * (cfgN 60).k = 2 ∧ (cfgN 60).k ≤ (cfgN 60).d ∧
    24 * (cfgN 60).k + 6 = (cfgN 60).half) ∧ SlackOk (waitingSend (idleN 60)) ∧
    HeldSend { waitingSend (idleN 192) with hcmd := 0x10000000#32 } 0 ∧
    endEvent (cfgN 192) ((0#16).toNat + (cfgN 192).d) * (cfgN 192).k = 4 ∧ (0#16).toNat + (cfgN 192).d = 2 :=
  ⟨by decide, idleN60_slack, ⟨by decide, ⟨List.length_replicate, by decide, by decide⟩, rfl, rfl, rfl, rfl, rfl, rfl,
    by decide, by decide⟩, by decide, rfl⟩

/-- The start of a clear; a held CLEAR; and the state after reset. -/
theorem witness_ClearEmitsWholeCycles : ((clearingN 48).cfg.wf = true ∧ RegsInRange (clearingN 48) ∧
    (clearingN 48).tx = .clearing ∧ (clearingN 48).engine = .busy ∧ (clearingN 48).genRun = true ∧
    (clearingN 48).rdidx = 0 ∧ (clearingN 48).halfPend = false ∧ (clearingN 48).wrapPend = false ∧
    (clearingN 48).clrCnt = 0 ∧
    (clearingN 48).buf = List.replicate (clearingN 48).cfg.n (clearingN 48).cfg.w0) ∧
    ((waitingClear (idleN 48)).cfg.wf = true ∧ (waitingClear (idleN 48)).inited = true ∧
      (waitingClear (idleN 48)).genRun = true ∧ (waitingClear (idleN 48)).hphase = .waitClear ∧
      (waitingClear (idleN 48)).hcmd = clearWord 0 1 ∧ (waitingClear (idleN 48)).tx = .idle ∧
      (waitingClear (idleN 48)).engine = .ready) ∧
    State.reset.cfg.wf = true ∧ State.reset.inited = false ∧ State.reset.hphase = .free := by decide

theorem witness_EveryTransmissionEnds : (Inv midSend ∧ midSend.engine = .busy) ∧ Inv lastCycle ∧ lastCycle.engine = .busy :=
  ⟨⟨midSend_inv, rfl⟩, lastCycle_inv, rfl⟩

end Sys2Proof.Tests
end

section
/-! PROOFS. The operations whose guard is false (00_scope.md R5, log 9): one rule per operation, the counterpart of the
`exec_…_runs` rules. -/

namespace Sys2Proof.Machine

theorem exec_evHalf_refuses {s : State} (hc : s.cfg.wf = true) (hp : s.halfPend = false) :
    exec .evHalf s = .refused (.notEnabled "EV_HALF") := by
  show execEvHalf s = _
  rw [execEvHalf, guardConfig_ok hc, if_neg (by simp [hp])]

theorem exec_evWrap_refuses {s : State} (hc : s.cfg.wf = true) (hp : s.wrapPend = false) :
    exec .evWrap s = .refused (.notEnabled "EV_WRAP") := by
  show execEvWrap s = _
  rw [execEvWrap, guardConfig_ok hc, if_neg (by simp [hp])]

theorem exec_engXfer_refuses {s : State} (hc : s.cfg.wf = true) (he : engineRuns s = false) :
    exec .engXfer s = .refused (.notEnabled "ENG_XFER") := by
  show execEngXfer s = _
  rw [execEngXfer, guardConfig_ok hc, if_neg (by simp [he])]

theorem exec_genTick_refuses {s : State} (hc : s.cfg.wf = true) (hg : s.genRun = false) :
    exec .genTick s = .refused (.notEnabled "GEN_TICK") := by
  show execGenTick s = _
  rw [execGenTick, guardConfig_ok hc, if_neg (by simp [hg])]

theorem exec_encodeUnit_refuses {s : State} {hf : Half} {j : Nat} (hc : s.cfg.wf = true) (hj : s.cfg.k ≤ j) :
    exec (.encodeUnit hf j) s = .refused (.slotOutOfRange j) := by
  show execEncodeUnit hf j s = _
  rw [execEncodeUnit, guardConfig_ok hc, if_neg (Nat.not_lt.mpr hj)]

theorem exec_ready_refuses {s : State} (hc : s.cfg.wf = true) (hi : s.inited = true) (hp : s.hphase ≠ .free) :
    exec .ready s = .refused (.notEnabled "READY") := by
  show execReady s = _
  rw [execReady, guardConfig_ok hc, if_neg (by simp [hi]), if_neg hp]

theorem exec_wait_refuses {s : State} (hc : s.cfg.wf = true) (hi : s.inited = true) (hp : s.hphase ≠ .free) :
    exec .wait s = .refused (.notEnabled "WAIT") := by
  show execWait s = _
  rw [execWait, guardConfig_ok hc, if_neg (by simp [hi]), if_neg hp]

theorem exec_init_refuses {s : State} (hc : s.cfg.wf = true) (hi : s.inited = false) (hp : s.hphase ≠ .free) :
    exec .init s = .refused (.notEnabled "INIT") := by
  show execInit s = _
  rw [execInit, guardConfig_ok hc, if_neg (by simp [hi]), if_neg hp]

theorem exec_ledw_refuses {s : State} {a : LedIndex} {r g b : Byte} (hc : s.cfg.wf = true) (hp : s.hphase ≠ .free) :
    exec (.ledw a r g b) s = .refused (.notEnabled "LEDW") := by
  show execLedw a r g b s = _
  rw [execLedw, guardConfig_ok hc, if_neg hp]

/-- A HOST that waits goes on with the SEND it holds and with no other (R121). -/
theorem exec_send_refuses {s : State} {base : LedIndex} {count : Count} (hc : s.cfg.wf = true) (hi : s.inited = true)
    (hp : s.hphase = .waitClear ∨ s.hphase = .waitSend ∧ s.hcmd ≠ sendWord base count) :
    exec (.send base count) s = .refused (.notEnabled "SEND") := by
  show execSend base count s = _
  rw [execSend, guardConfig_ok hc, if_neg (by simp [hi])]
  rcases hp with hp | ⟨hp, hw⟩
  · simp only [hp]
  · simp only [hp, if_neg hw]

/-- A HOST that waits goes on with the CLEAR it holds and with no other (R121). -/
theorem exec_clear_refuses {s : State} {base : LedIndex} {count : Count} (hc : s.cfg.wf = true) (hi : s.inited = true)
    (hp : s.hphase = .waitSend ∨ s.hphase = .waitClear ∧ s.hcmd ≠ clearWord base count) :
    exec (.clear base count) s = .refused (.notEnabled "CLEAR") := by
  show execClear base count s = _
  rw [execClear, guardConfig_ok hc, if_neg (by simp [hi])]
  rcases hp with hp | ⟨hp, hw⟩
  · simp only [hp]
  · simp only [hp, if_neg hw]

theorem engineRuns_eq_false_of_ready_or_stopped {s : State} (h : s.engine = .ready ∨ s.genRun = false) :
    engineRuns s = false := by
  rw [engineRuns_eq_false]
  rintro ⟨hb, hg⟩
  simp [hb, hg] at h

/-- Settles O40, one refusal rule per operation. -/
theorem falseGuardRefused : Obligations.FalseGuardRefused := by
  intro s hc
  refine ⟨exec_evHalf_refuses hc, exec_evWrap_refuses hc,
    fun h => exec_engXfer_refuses hc (engineRuns_eq_false_of_ready_or_stopped h), exec_genTick_refuses hc,
    fun _ _ => exec_encodeUnit_refuses hc, fun hp => ⟨?_, ?_, ?_⟩, fun _ _ hi => ⟨?_, ?_⟩⟩
  · exact fun hi => ⟨exec_ready_refuses hc hi hp, exec_wait_refuses hc hi hp⟩
  · exact fun hi => exec_init_refuses hc hi hp
  · exact fun _ _ _ _ => exec_ledw_refuses hc hp
  · exact exec_send_refuses hc hi
  · exact exec_clear_refuses hc hi

end Sys2Proof.Machine
end

section
/-! PROOFS. What each agent's turn fetches (00_scope.md R4, R5), and a step at a turn the schedule has decided. -/

namespace Sys2Proof.Machine

/-! ### The fetch of each agent -/

theorem fetchWord_ok {w : CmdWord} {i : Instr} (hd : decodeCmd w = .ok i) (s : State) : fetchWord w s = .run i s := by
  simp only [fetchWord, hd]

theorem fetch_host_word {s : State} {w : CmdWord} {i : Instr} {rest : List HostItem} (hp : s.hphase = .free)
    (hs : s.script = .word w :: rest) (hd : decodeCmd w = .ok i) :
    fetch .host s = .run i { s with script := rest } := by
  simp only [fetch, fetchHost, hp, hs, fetchWord_ok hd]

theorem fetch_host_held {s : State} {i : Instr} (hp : s.hphase ≠ .free) (hd : decodeCmd s.hcmd = .ok i) :
    fetch .host s = .run i s := by
  cases hph : s.hphase with
  | free => exact absurd hph hp
  | waitSend => simp only [fetch, fetchHost, hph, fetchWord_ok hd]
  | waitClear => simp only [fetch, fetchHost, hph, fetchWord_ok hd]

theorem fetch_host_wait {s : State} {rest : List HostItem} (hp : s.hphase = .free) (hs : s.script = .wait :: rest) :
    fetch .host s = .run .wait { s with script := rest } := by
  simp only [fetch, fetchHost, hp, hs]

theorem fetch_host_ledw {s : State} {x : LedIndex} {r g b : Byte} {rest : List HostItem} (hp : s.hphase = .free)
    (hs : s.script = .ledw x r g b :: rest) : fetch .host s = .run (.ledw x r g b) { s with script := rest } := by
  simp only [fetch, fetchHost, hp, hs]

theorem fetch_handler_run {s : State} {i : Instr} (hd : decodeEvt (eventVector s) = .ok i) :
    fetch .handler s = .run i s := by
  simp only [fetch, fetchHandler, hd]

theorem fetch_engine_run {s : State} (hl : s.cfg.level = .period) (hr : engineRuns s = true) :
    fetch .engine s = .run .engXfer s := by
  simp only [fetch, fetchEngine, hl, if_pos hr]

theorem fetch_generator_run {s : State} (hl : s.cfg.level = .tick) (hg : s.genRun = true) :
    fetch .generator s = .run .genTick s := by
  simp only [fetch, fetchGenerator, hl, if_pos hg]

/-! ### A decided turn -/

theorem takeTurn_of_turns {s : State} {a : Agent} {later : List Agent} (ht : s.turns = a :: later) :
    takeTurn s = (a, { s with turns := later }) := by
  simp only [takeTurn, ht]

theorem runTurn_of_fetch {a : Agent} {s t : State} {i : Instr} (hf : fetch a s = .run i t) :
    runTurn a s = exec i t := by
  simp only [runTurn, hf]

theorem step_of_turns {s : State} {a : Agent} {later : List Agent} (hc : s.cfg.wf = true) (ht : s.turns = a :: later) :
    step s = runTurn a { s with turns := later } := by
  rw [step, guardConfig_ok hc, takeTurn_of_turns ht]

theorem step_of_fetch {s t : State} {a : Agent} {later : List Agent} {i : Instr} (hc : s.cfg.wf = true)
    (ht : s.turns = a :: later) (hf : fetch a { s with turns := later } = .run i t) : step s = exec i t :=
  (step_of_turns hc ht).trans (runTurn_of_fetch hf)

/-- Settles O44: the step runs what the turn's agent fetches, and each agent's fetch has its rule. -/
theorem stepRunsFetchedInstruction : Obligations.StepRunsFetchedInstruction := by
  intro s a later hc ht
  refine ⟨?word, ?held, ?wait, ?ledw, ?handler, ?engine, ?generator⟩
  case word =>
    rintro w i rest rfl hp hs hd
    exact step_of_fetch hc ht (fetch_host_word hp hs hd)
  case held =>
    rintro i rfl hp hd
    exact step_of_fetch hc ht (fetch_host_held hp hd)
  case wait =>
    rintro rest rfl hp hs
    exact step_of_fetch hc ht (fetch_host_wait hp hs)
  case ledw =>
    rintro x r g b rest rfl hp hs
    exact step_of_fetch hc ht (fetch_host_ledw hp hs)
  case handler =>
    rintro i rfl hd
    exact step_of_fetch hc ht (fetch_handler_run hd)
  case engine =>
    rintro rfl hl he hg
    exact step_of_fetch hc ht (fetch_engine_run hl ((engineRuns_iff _).mpr ⟨he, hg⟩))
  case generator =>
    rintro rfl hl hg
    exact step_of_fetch hc ht (fetch_generator_run hl hg)

end Sys2Proof.Machine
end

section
/-! PROOFS. Everything an operation of the HOST can do, one case per outcome, and what the operations of the other agents leave
alone (10_state.md R42). -/

namespace Sys2Proof.Machine

/-! ### The HOST -/

/-- The operations of the HOST: the command words and the pseudo-instructions (R83, R93). -/
abbrev IsHostInstr (i : Instr) : Prop := i.format = .cmd ∨ i.format = .pseudo

/-- The commands that can hold the port, SEND and CLEAR (R36). -/
inductive IsPortCommand : Instr → Prop where
  | send (base : LedIndex) (count : Count) : IsPortCommand (.send base count)
  | clear (base : LedIndex) (count : Count) : IsPortCommand (.clear base count)

/-- The outcomes of the HOST's operations, each with the guards its later uses rest on: from `s` the operation answers the
state named (R120 to R132). -/
inductive HostEffect (s : State) : Instr → State → Prop where
  | answered : HostEffect s .ready (giveAnswer s)
  | waitEnded : HostEffect s .wait (giveAnswer s)
  | waitRepeated : HostEffect s .wait (repeatWait (giveAnswer s))
  | stored (a : LedIndex) (r g b : Byte) :
      HostEffect s (.ledw a r g b) (setLedmem (ledWrite s.ledmem a.toNat (r ++ g ++ b)) s)
  | initialised (hp : s.hphase = .free) : HostEffect s .init (beginClear (setUp s))
  | rejected {i : Instr} (hi : IsPortCommand i) (f : CodedFault) (w : CmdWord) : HostEffect s i (raiseCoded f w s)
  | sendHeld {base : LedIndex} {count : Count} (hi : s.inited = true) (hb : badArgument s.cfg base count = false) :
      HostEffect s (.send base count) (holdWord (sendWord base count) .waitSend s)
  | clearHeld {base : LedIndex} {count : Count} (hi : s.inited = true) (hb : badArgument s.cfg base count = false) :
      HostEffect s (.clear base count)
        (holdWord (clearWord base count) .waitClear (setLedmem (zeroLeds s.ledmem base.toNat count.toNat) s))
  | timedOut {i : Instr} (hi : IsPortCommand i) : HostEffect s i (freePort (raiseCoded .engineFault s.hcmd s))
  | spun {i : Instr} (hi : IsPortCommand i) : HostEffect s i s
  | sendAccepted {base : LedIndex} {count : Count} {t : State} (hi : s.inited = true) (hp : s.hphase = .waitSend)
      (hw : s.hcmd = sendWord base count) (hr : idleReady s = true) (ha : acceptSend base count s = .next t) :
      HostEffect s (.send base count) t
  | clearAccepted {base : LedIndex} {count : Count} (hi : s.inited = true) (hr : idleReady s = true) :
      HostEffect s (.clear base count) (freePort (beginClear s))

theorem execSend_effect {base : LedIndex} {count : Count} {s t : State} (h : execSend base count s = .next t) :
    HostEffect s (.send base count) t := by
  obtain ⟨-, hi, ⟨-, h⟩ | ⟨hp, hw, h⟩⟩ := execSend_cases h
  · rcases presentSend_cases h with ⟨-, rfl⟩ | ⟨-, -, -, rfl⟩ | ⟨hb, rfl⟩
    · exact .rejected (.send ..) ..
    · exact .rejected (.send ..) ..
    · exact .sendHeld hi hb
  · rcases waitAtPort_cases h with ⟨hr, ha⟩ | ⟨-, -, rfl⟩ | ⟨-, -, rfl⟩
    · exact .sendAccepted hi hp hw hr ha
    · exact .timedOut (.send ..)
    · exact .spun (.send ..)

theorem execClear_effect {base : LedIndex} {count : Count} {s t : State} (h : execClear base count s = .next t) :
    HostEffect s (.clear base count) t := by
  obtain ⟨-, hi, ⟨-, h⟩ | ⟨-, -, h⟩⟩ := execClear_cases h
  · rcases presentClear_cases h with ⟨-, rfl⟩ | ⟨-, -, -, rfl⟩ | ⟨hb, -, rfl⟩
    · exact .rejected (.clear ..) ..
    · exact .rejected (.clear ..) ..
    · exact .clearHeld hi hb
  · rcases waitAtPort_cases h with ⟨hr, ha⟩ | ⟨-, -, rfl⟩ | ⟨-, -, rfl⟩
    · cases ha
      exact .clearAccepted hi hr
    · exact .timedOut (.clear ..)
    · exact .spun (.clear ..)

theorem exec_hostEffect {i : Instr} {s t : State} (hi : IsHostInstr i) (h : exec i s = .next t) : HostEffect s i t := by
  cases i with
  | ready => obtain ⟨-, -, -, rfl⟩ := execReady_cases h; exact .answered
  | send base count => exact execSend_effect h
  | clear base count => exact execClear_effect h
  | init => obtain ⟨-, -, hp, rfl⟩ := execInit_cases h; exact .initialised hp
  | wait =>
    obtain ⟨-, -, -, ⟨-, rfl⟩ | ⟨-, rfl⟩⟩ := execWait_cases h
    · exact .waitEnded
    · exact .waitRepeated
  | ledw a r g b => obtain ⟨-, -, -, rfl⟩ := execLedw_cases h; exact .stored a r g b
  | evHalf | evWrap | encodeUnit | encodeHalf | engStart | engStop | engXfer | genTick => simp [IsHostInstr, Instr.format] at hi

/-- The accept step of a SEND starts the transmission, and beside BUF and P the encoder writes nothing (R124). -/
theorem acceptSend_frame {base : LedIndex} {count : Count} {s t : State} (h : acceptSend base count s = .next t) :
    t = { s with
      ledBase := base, ledCount := count, p := t.p, buf := t.buf, tx := .sending, engine := .busy, rdidx := 0
      halfPend := false, wrapPend := false, hphase := .free } := by
  obtain ⟨s1, s2, h1, h2, rfl⟩ := acceptSend_cases h
  rw [encodeHalf_frame h2, encodeHalf_frame h1]
  rfl

/-! ### The other agents -/

/-- Settles O23: a handler acknowledges, and then refills a half, stops the engine, counts a clear cycle, or rests. -/
theorem handlerFrame : Obligations.HandlerFrame := by
  intro s t
  constructor
  · intro h
    obtain ⟨-, -, ⟨-, -, he⟩ | ⟨-, rfl⟩ | ⟨-, rfl⟩⟩ := execEvHalf_cases h
    · rw [encodeHalf_frame he]; rfl
    · rfl
    · rfl
  · intro h
    obtain ⟨-, -, ⟨-, -, he⟩ | ⟨-, rfl⟩ | ⟨-, rfl⟩ | ⟨-, -, rfl⟩ | ⟨-, -, rfl⟩⟩ := execEvWrap_cases h
    · rw [encodeHalf_frame he]; rfl
    all_goals rfl

/-- Beside the HOST no operation writes the configuration, the LED space, the borrowed reference, ERR, INITED, GEN_RUN, the port
or the HOST's records. -/
theorem exec_frame_of_not_host {i : Instr} {s t : State} (hi : ¬IsHostInstr i) (h : exec i s = .next t) :
    t = { s with
      tx := t.tx, engine := t.engine, p := t.p, clrCnt := t.clrCnt, duty := t.duty, rdidx := t.rdidx
      halfPend := t.halfPend, wrapPend := t.wrapPend, buf := t.buf, tick := t.tick, pin := t.pin, active := t.active
      out := t.out, wave := t.wave } := by
  cases i with
  | ready | send | clear | init | wait | ledw => simp [Instr.format] at hi
  | evHalf => rw [(handlerFrame s t).1 h]
  | evWrap => rw [(handlerFrame s t).2 h]
  | encodeUnit hf j =>
    obtain ⟨-, -, h⟩ := execEncodeUnit_cases h
    rcases encodeUnit_cases h with ⟨-, rfl⟩ | ⟨-, rfl⟩ <;> rfl
  | encodeHalf hf => rw [encodeHalf_frame (execEncodeHalf_cases h).2]
  | engStart => obtain ⟨-, rfl⟩ := execEngStart_cases h; rfl
  | engStop => obtain ⟨-, rfl⟩ := execEngStop_cases h; rfl
  | engXfer => obtain ⟨-, -, -, v, -, rfl⟩ := execEngXfer_cases h; rfl
  | genTick =>
    obtain ⟨-, -, u, hu, rfl⟩ := execGenTick_cases h
    rcases startPeriod_cases hu with ⟨-, rfl⟩ | ⟨-, -, rfl⟩ | ⟨-, -, -, v, -, rfl⟩ <;> rfl

/-! ### One step -/

/-- The operations a turn can run; the sub-steps ENCODE_UNIT, ENCODE_HALF, ENG_START and ENG_STOP are run by none (R4). -/
inductive RunByTurn : Instr → Prop where
  | host {i : Instr} (hi : IsHostInstr i) : RunByTurn i
  | evHalf : RunByTurn .evHalf
  | evWrap : RunByTurn .evWrap
  | engXfer : RunByTurn .engXfer
  | genTick : RunByTurn .genTick

theorem fetch_runByTurn {a : Agent} {s t : State} {i : Instr} (h : fetch a s = .run i t) : RunByTurn i := by
  rcases fetch_run_instr h with ⟨-, hi⟩ | ⟨-, rfl | rfl⟩ | ⟨-, rfl, -⟩ | ⟨-, rfl, -⟩
  · exact .host hi
  · exact .evHalf
  · exact .evWrap
  · exact .engXfer
  · exact .genTick

/-- One step takes a turn, which moves the schedule and the HOST's sequence on, and then runs an operation or passes. -/
theorem step_runs {s t : State} (h : step s = .next t) :
    ∃ u l ts n, u = { s with script := l, turns := ts, turnCount := n } ∧
      (t = u ∨ ∃ i, RunByTurn i ∧ exec i u = .next t) := by
  obtain ⟨-, ⟨a, i, u, hf, he⟩ | ⟨ts, n, rfl⟩⟩ := step_cases h
  · obtain ⟨ts, n, hts⟩ := takeTurn_state s
    obtain ⟨l, rfl⟩ := fetch_run hf
    exact ⟨_, l, ts, n, by rw [hts], .inr ⟨i, fetch_runByTurn hf, he⟩⟩
  · exact ⟨_, s.script, ts, n, rfl, .inl rfl⟩

end Sys2Proof.Machine
end

section
/-! PROOFS. What no operation changes but the ones named: the configuration and ERR, INITED and GEN_RUN, the LED space, the
Progress Counter, a blank buffer, and the shared state while a transmission runs (10_state.md R23, R31 to R33, R37, R42). -/

namespace Sys2Proof.Machine

/-! ### The configuration and ERR -/

theorem exec_keeps_cfg {i : Instr} {s t : State} (h : exec i s = .next t) : t.cfg = s.cfg := by
  by_cases hi : IsHostInstr i
  · cases exec_hostEffect hi h with
    | sendAccepted _ _ _ _ ha => rw [acceptSend_frame ha]
    | _ => rfl
  · rw [exec_frame_of_not_host hi h]

theorem raiseCoded_err_sticky (f : CodedFault) (w : CmdWord) (s : State) {b : Nat} (hb : s.err.getLsbD b = true) :
    (raiseCoded f w s).err.getLsbD b = true := by
  simp [hb]

theorem exec_err_sticky {i : Instr} {s t : State} (h : exec i s = .next t) {b : Nat} (hb : s.err.getLsbD b = true) :
    t.err.getLsbD b = true := by
  by_cases hi : IsHostInstr i
  · cases exec_hostEffect hi h with
    | rejected _ f w => exact raiseCoded_err_sticky f w s hb
    | timedOut => exact raiseCoded_err_sticky .engineFault s.hcmd s hb
    | sendAccepted _ _ _ _ ha => rw [acceptSend_frame ha]; exact hb
    | _ => exact hb
  · rw [exec_frame_of_not_host hi h]; exact hb

/-- Settles O51: no operation writes the configuration or clears an ERR bit, and the turn before it touches neither. -/
theorem errStickyConfigurationFixed : Obligations.ErrStickyConfigurationFixed := by
  intro s t h
  obtain ⟨u, l, ts, n, rfl, rfl | ⟨i, -, he⟩⟩ := step_runs h
  · exact ⟨rfl, fun _ hb => hb⟩
  · have hcfg := exec_keeps_cfg he
    exact ⟨hcfg, fun _ hb => exec_err_sticky he hb⟩

/-! ### INITED and GEN_RUN -/

/-- Settles O52: INIT sets both, and of the other operations of the HOST and of the other agents none writes them. -/
theorem initedSetOnlyByInit : Obligations.InitedSetOnlyByInit := by
  intro i s t h
  by_cases hi : IsHostInstr i
  · cases exec_hostEffect hi h with
    | initialised => exact ⟨fun _ => ⟨rfl, rfl⟩, fun hne => absurd rfl hne⟩
    | rejected hp | timedOut hp | spun hp => cases hp <;> exact ⟨nofun, fun _ => ⟨rfl, rfl⟩⟩
    | sendAccepted _ _ _ _ ha => rw [acceptSend_frame ha]; exact ⟨nofun, fun _ => ⟨rfl, rfl⟩⟩
    | _ => exact ⟨nofun, fun _ => ⟨rfl, rfl⟩⟩
  · rw [exec_frame_of_not_host hi h]
    exact ⟨fun hinit => absurd (hinit ▸ .inl rfl) hi, fun _ => ⟨rfl, rfl⟩⟩

/-! ### The LED space -/

theorem zeroLeds_wf_of_argument {c : Config} {base : LedIndex} {count : Count} {m : Memory} (hm : Memory.Wf m)
    (hb : badArgument c base count = false) : Memory.Wf (zeroLeds m base.toNat count.toNat) :=
  zeroLeds_wf m _ _ hm ((badArgument_eq_false c base count).mp hb).2

/-- Settles O46: LEDW stores one element and CLEAR zeroes an array that passed the argument check; nothing else writes the LED
space. -/
theorem memoryStaysCanonical : Obligations.MemoryStaysCanonical := by
  intro i s t hm h
  by_cases hi : IsHostInstr i
  · cases exec_hostEffect hi h with
    | stored a r g b => exact ledWrite_wf _ _ _ hm a.isLt
    | clearHeld _ hb => exact zeroLeds_wf_of_argument hm hb
    | sendAccepted _ _ _ _ ha => rw [acceptSend_frame ha]; exact hm
    | _ => exact hm
  · rw [exec_frame_of_not_host hi h]; exact hm

/-! ### The Progress Counter -/

/-- The encoder never counts P down. -/
theorem encodeSlots_progress_le {hf : Half} {count j : Nat} {s t : State} (hfit : totalUnits s < 2 ^ 16)
    (h : encodeSlots hf count j s = .next t) : s.p.toNat ≤ t.p.toNat := by
  induction count generalizing j s with
  | zero => cases h; exact le_rfl
  | succ n ih =>
    obtain ⟨s1, h1, h2⟩ := andThen_eq_next h
    rcases encodeUnit_cases h1 with ⟨hlt, rfl⟩ | ⟨-, rfl⟩
    · have hinc : (s.p + 1).toNat = s.p.toNat + 1 := by rw [BitVec.toNat_add]; simp; omega
      have := ih (s := writeUnit _ _ s) hfit h2
      rw [writeUnit_p] at this
      omega
    · exact ih hfit h2

/-- The operations that encode: the handlers and the two sub-steps of the Bit Encoder. -/
abbrev Encodes (i : Instr) : Prop :=
  i = .evHalf ∨ i = .evWrap ∨ (∃ h j, i = .encodeUnit h j) ∨ ∃ h, i = .encodeHalf h

/-- What an operation does to P: nothing; counting up, by an operation that encodes; or the accept step of a SEND. -/
theorem exec_progress_cases {i : Instr} {s t : State} (hfit : totalUnits s < 2 ^ 16) (h : exec i s = .next t) :
    t.p = s.p ∨ (Encodes i ∧ s.p.toNat ≤ t.p.toNat) ∨
    (s.hphase = .waitSend ∧ s.tx = .idle ∧ s.engine = .ready ∧ ∃ base count, i = .send base count) := by
  by_cases hi : IsHostInstr i
  · cases exec_hostEffect hi h with
    | sendAccepted _ hp _ hr =>
      obtain ⟨htx, he⟩ := (idleReady_iff s).mp hr
      exact .inr (.inr ⟨hp, htx, he, _, _, rfl⟩)
    | _ => exact .inl rfl
  cases i with
  | ready | send | clear | init | wait | ledw => simp [Instr.format] at hi
  | evHalf =>
    obtain ⟨-, -, ⟨-, -, he⟩ | ⟨-, rfl⟩ | ⟨-, rfl⟩⟩ := execEvHalf_cases h
    · exact .inr (.inl ⟨.inl rfl, encodeSlots_progress_le (s := ackHalf s) hfit he⟩)
    all_goals exact .inl rfl
  | evWrap =>
    obtain ⟨-, -, ⟨-, -, he⟩ | ⟨-, rfl⟩ | ⟨-, rfl⟩ | ⟨-, -, rfl⟩ | ⟨-, -, rfl⟩⟩ := execEvWrap_cases h
    · exact .inr (.inl ⟨.inr (.inl rfl), encodeSlots_progress_le (s := ackWrap s) hfit he⟩)
    all_goals exact .inl rfl
  | encodeUnit hf j =>
    obtain ⟨-, -, he⟩ := execEncodeUnit_cases h
    refine .inr (.inl ⟨.inr (.inr (.inl ⟨hf, j, rfl⟩)), ?_⟩)
    exact encodeSlots_progress_le (count := 1) hfit (show andThen (encodeUnit hf j s) _ = _ by rw [he]; rfl)
  | encodeHalf hf =>
    exact .inr (.inl ⟨.inr (.inr (.inr ⟨hf, rfl⟩)), encodeSlots_progress_le hfit (execEncodeHalf_cases h).2⟩)
  | engStart => obtain ⟨-, rfl⟩ := execEngStart_cases h; exact .inl rfl
  | engStop => obtain ⟨-, rfl⟩ := execEngStop_cases h; exact .inl rfl
  | engXfer => obtain ⟨-, -, -, v, -, rfl⟩ := execEngXfer_cases h; exact .inl rfl
  | genTick =>
    obtain ⟨-, -, u, hu, rfl⟩ := execGenTick_cases h
    rcases startPeriod_cases hu with ⟨-, rfl⟩ | ⟨-, -, rfl⟩ | ⟨-, -, -, v, -, rfl⟩ <;> exact .inl rfl

/-- Settles O54, by the three things an operation can do to P. -/
theorem progressFallsOnlyAtSend : Obligations.ProgressFallsOnlyAtSend := by
  intro i s t hfit h
  rcases exec_progress_cases hfit h with hp | ⟨hi, hle⟩ | ⟨hp, htx, he, hsend⟩
  · exact ⟨fun hlt => absurd (hp ▸ hlt) (Nat.lt_irrefl _), fun hne => absurd hp hne⟩
  · refine ⟨fun hlt => absurd hlt (Nat.not_lt.mpr hle), fun _ => ?_⟩
    rcases hi with hi | hi | hi | hi
    · exact .inl hi
    · exact .inr (.inl hi)
    · exact .inr (.inr (.inl hi))
    · exact .inr (.inr (.inr (.inl hi)))
  · exact ⟨fun _ => ⟨hp, htx, he, hsend⟩, fun _ => .inr (.inr (.inr (.inr hsend)))⟩

/-! ### A blank buffer -/

/-- Outside a transmission no turn's operation writes anything but W0 to the buffer: the encoder runs while sending only, and
CLEAR and INIT fill with W0. -/
theorem exec_keeps_blank {i : Instr} {s t : State} (hi : RunByTurn i) (h : exec i s = .next t) (hs : s.tx ≠ .sending)
    (ht : t.tx ≠ .sending) (hb : ∀ v ∈ s.buf, v = s.cfg.w0) : ∀ v ∈ t.buf, v = t.cfg.w0 := by
  cases hi with
  | host hi =>
    cases exec_hostEffect hi h with
    | initialised | clearAccepted => exact fun v hv => List.eq_of_mem_replicate hv
    | sendAccepted _ _ _ _ ha => rw [acceptSend_frame ha] at ht; exact absurd rfl ht
    | _ => exact hb
  | evHalf =>
    obtain ⟨-, -, ⟨hs', -, -⟩ | ⟨-, rfl⟩ | ⟨-, rfl⟩⟩ := execEvHalf_cases h
    · exact absurd hs' hs
    all_goals exact hb
  | evWrap =>
    obtain ⟨-, -, ⟨hs', -, -⟩ | ⟨-, rfl⟩ | ⟨-, rfl⟩ | ⟨-, -, rfl⟩ | ⟨-, -, rfl⟩⟩ := execEvWrap_cases h
    · exact absurd hs' hs
    all_goals exact hb
  | engXfer => obtain ⟨-, -, -, v, -, rfl⟩ := execEngXfer_cases h; exact hb
  | genTick =>
    obtain ⟨-, -, u, hu, rfl⟩ := execGenTick_cases h
    rcases startPeriod_cases hu with ⟨-, rfl⟩ | ⟨-, -, rfl⟩ | ⟨-, -, -, v, -, rfl⟩ <;> exact hb

/-- Settles O48: the turn leaves the buffer alone, and the operation it runs keeps it blank. -/
theorem blankBufferStaysBlank : Obligations.BlankBufferStaysBlank := by
  intro s t hs ht h hb
  obtain ⟨u, l, ts, n, rfl, rfl | ⟨i, hi, he⟩⟩ := step_runs h
  · exact hb
  · exact exec_keeps_blank hi he hs ht hb

/-! ### The HOST while a transmission runs -/

/-- Settles O56: a busy block accepts nothing, and the other outcomes of the HOST write its own state, ERR and the LED space. -/
theorem callerNeverWritesWhileBusy : Obligations.CallerNeverWritesWhileBusy := by
  intro i s t hi hinit htx h
  cases exec_hostEffect hi h with
  | initialised => exact absurd rfl hinit
  | sendAccepted _ _ _ hr | clearAccepted _ hr => exact absurd ((idleReady_iff s).mp hr).1 htx
  | _ => rfl

end Sys2Proof.Machine
end

section
/-! PROOFS. Power-on reset (10_state.md R41), and that it meets the invariant (R38). -/

namespace Sys2Proof.Machine

/-- Settles O41: each register is written out in the reset state. -/
theorem resetValues : Obligations.ResetValues :=
  fun _ => ⟨rfl, rfl, rfl, rfl, rfl, rfl, rfl, rfl, rfl, rfl, rfl, rfl⟩

theorem config_n_pos {c : Config} (hc : c.wf = true) : 0 < c.n := by
  obtain ⟨-, hn, -⟩ := (config_wf_iff c).mp hc
  omega

theorem config_period_pos {c : Config} (hc : c.wf = true) : 0 < c.period := by
  obtain ⟨-, -, -, -, -, hp, -⟩ := (config_wf_iff c).mp hc
  omega

/-- Before INIT the block is idle with no event pending and a free port, so of the invariant only the configuration, the ranges
and the LED space are left to ask for. -/
theorem inv_of_reset_values {s : State} (hc : s.cfg.wf = true) (hr : RegsInRange s) (hm : Memory.Wf s.ledmem)
    (htx : s.tx = .idle) (he : s.engine = .ready) (hh : s.halfPend = false) (hw : s.wrapPend = false)
    (hi : s.inited = false) (hg : s.genRun = false) (hp : s.hphase = .free) : Inv s where
  config := hc
  regs := hr
  memory := hm
  control := by simp [ControlOk, htx, he, hi, hg, hp]
  events := by simp [EventsOk, hh, hw]
  buffer := by simp [BufferOk, hi, htx]
  counters := by simp [CountersOk, htx]
  port := by simp [PortOk, hp]

theorem resetWith_inv {c : Config} (hc : c.wf = true) : Inv (State.resetWith c) :=
  inv_of_reset_values hc ⟨List.length_replicate .., config_n_pos hc, config_period_pos hc⟩
    ⟨List.Pairwise.nil, nofun, nofun⟩ rfl rfl rfl rfl rfl rfl rfl

/-- Settles O43, from the values of R41 alone. -/
theorem resetMeetsInvariant : Obligations.ResetMeetsInvariant :=
  ⟨fun _ hc hr hm htx he hh hw hi hg hp => inv_of_reset_values hc hr hm htx he hh hw hi hg hp,
    fun _ hc => resetWith_inv hc, resetWith_inv (by decide)⟩

end Sys2Proof.Machine
end

section
/-! PROOFS. Every step keeps the invariant (10_state.md R37, R38; 42_event_handler.md R145): first one rule per state update, then
one per agent. -/

namespace Sys2Proof.Machine

/-! ### One rule per update -/

/-- The invariant does not read ERR, DUTY, the pin, the outputs, the model's records and the schedule. -/
theorem Inv.of_unread {s t : State} (h : Inv s)
    (ht : t = { s with
      duty := t.duty, err := t.err, pin := t.pin, active := t.active, out := t.out, answers := t.answers
      faultLog := t.faultLog, wave := t.wave, script := t.script, turns := t.turns, turnCount := t.turnCount }) :
    Inv t := by
  rw [ht]
  exact ⟨h.config, h.regs, h.memory, h.control, h.events, h.buffer, h.counters, h.port⟩

theorem Inv.buf_length {s : State} (h : Inv s) : s.buf.length = s.cfg.n := h.regs.1

theorem Inv.rdidx_lt {s : State} (h : Inv s) : s.rdidx < s.cfg.n := h.regs.2.1

theorem Inv.tick_lt {s : State} (h : Inv s) : s.tick < s.cfg.period := h.regs.2.2

theorem Inv.freePort {s : State} (h : Inv s) : Inv (freePort s) where
  config := h.config
  regs := h.regs
  memory := h.memory
  control := by
    obtain ⟨hdone, hbusy, hgen, hinit⟩ := h.control
    exact ⟨hdone, hbusy, hgen, fun hi => ⟨(hinit hi).1, rfl⟩⟩
  events := h.events
  buffer := h.buffer
  counters := h.counters
  port := ⟨nofun, nofun⟩

theorem Inv.setLedmem {s : State} (h : Inv s) {m : Memory} (hm : Memory.Wf m) : Inv (setLedmem m s) :=
  ⟨h.config, h.regs, hm, h.control, h.events, h.buffer, h.counters, h.port⟩

/-- After INIT the port may be taken by any word that meets what the invariant asks of it. -/
theorem Inv.holdWord {s : State} (h : Inv s) (hi : s.inited = true) {w : CmdWord} {ph : HPhase}
    (hport : PortOk (holdWord w ph s)) : Inv (holdWord w ph s) where
  config := h.config
  regs := h.regs
  memory := h.memory
  control := by
    obtain ⟨hdone, hbusy, hgen, -⟩ := h.control
    exact ⟨hdone, hbusy, hgen, fun hi' => absurd (hi.symm.trans hi') nofun⟩
  events := h.events
  buffer := h.buffer
  counters := h.counters
  port := hport

theorem portOk_holdWord_send {s : State} {base : LedIndex} {count : Count} (hb : badArgument s.cfg base count = false) :
    PortOk (holdWord (sendWord base count) .waitSend s) := by
  simp [PortOk, hb]

theorem portOk_holdWord_clear {s : State} {base : LedIndex} {count : Count} (hb : badArgument s.cfg base count = false) :
    PortOk (holdWord (clearWord base count) .waitClear s) := by
  simp [PortOk, hb]

theorem Inv.ackHalf {s : State} (h : Inv s) : Inv (ackHalf s) where
  config := h.config
  regs := h.regs
  memory := h.memory
  control := h.control
  events := ⟨nofun, fun he => ⟨rfl, (h.events.2 he).2⟩⟩
  buffer := h.buffer
  counters := h.counters
  port := h.port

theorem Inv.ackWrap {s : State} (h : Inv s) : Inv (ackWrap s) where
  config := h.config
  regs := h.regs
  memory := h.memory
  control := h.control
  events := ⟨nofun, fun he => ⟨(h.events.2 he).1, rfl⟩⟩
  buffer := h.buffer
  counters := h.counters
  port := h.port

/-- The end of a transmission: the engine stops as STATE becomes idle, with no event left (R38, R145). -/
theorem Inv.stopIdle {s : State} (h : Inv s) (hh : s.halfPend = false) (hw : s.wrapPend = false) :
    Inv (setTx .idle (stopEngine s)) where
  config := h.config
  regs := h.regs
  memory := h.memory
  control := by
    obtain ⟨-, -, hgen, hinit⟩ := h.control
    exact ⟨nofun, by simp, hgen, fun hi => ⟨rfl, (hinit hi).2⟩⟩
  events := ⟨h.events.1, fun _ => ⟨hh, hw⟩⟩
  buffer := ⟨h.buffer.1, nofun⟩
  counters := ⟨nofun, nofun⟩
  port := h.port

/-- A clear cycle may be counted while another is left (R24). -/
theorem Inv.countCycle {s : State} (h : Inv s) (hl : s.tx = .clearing → s.clrCnt.toNat + 1 < s.cfg.clearLimit) :
    Inv (countCycle s) where
  config := h.config
  regs := h.regs
  memory := h.memory
  control := h.control
  events := h.events
  buffer := h.buffer
  counters := by
    refine ⟨h.counters.1, fun htx => Nat.lt_of_le_of_lt ?_ (hl htx)⟩
    rw [countCycle_clrCnt, BitVec.toNat_add]
    exact Nat.mod_le ..
  port := h.port

/-- The start of a clear: all that is asked of the state before is what the clear does not write (R120, R128). -/
theorem inv_beginClear {s : State} (hc : s.cfg.wf = true) (htick : s.tick < s.cfg.period) (hm : Memory.Wf s.ledmem)
    (hi : s.inited = true) (hg : s.genRun = true) (hport : PortOk s) : Inv (beginClear s) := by
  obtain ⟨-, -, -, -, -, -, hlimit, -⟩ := (config_wf_iff _).mp hc
  have hblank : ∀ v ∈ (beginClear s).buf, v = s.cfg.w0 := fun v hv => List.eq_of_mem_replicate hv
  exact {
    config := hc
    regs := ⟨List.length_replicate .., config_n_pos hc, htick⟩
    memory := hm
    control := by simp [ControlOk, beginClear, hi, hg]
    events := ⟨nofun, nofun⟩
    buffer := ⟨fun _ v hv => .inl (hblank v hv), fun _ => hblank⟩
    counters := ⟨nofun, fun _ => hlimit⟩
    port := hport }

/-! ### Sending -/

/-- What the invariant says of the buffer and the counters while sending. The encoder keeps it, whatever STATE is. -/
structure UnitsOk (s : State) : Prop where
  length : s.buf.length = s.cfg.n
  symbols : ∀ v ∈ s.buf, v = s.cfg.w0 ∨ v = s.cfg.w1
  progress : s.p.toNat ≤ totalUnits s
  count : s.ledCount.toNat ≤ s.cfg.maxLeds
  array : s.ledBase.toNat + s.ledCount.toNat ≤ ledmemSize

/-- The units of a transmission fit the counter P (R11). -/
theorem totalUnits_lt {s : State} (hc : s.cfg.wf = true) (hn : s.ledCount.toNat ≤ s.cfg.maxLeds) :
    totalUnits s < 2 ^ 16 := by
  obtain ⟨-, -, -, -, -, -, -, -, hfit⟩ := (config_wf_iff _).mp hc
  rw [totalUnits]; omega

theorem encodeHalf_keeps_unitsOk {hf : Half} {s t : State} (hc : s.cfg.wf = true) (hu : UnitsOk s)
    (h : encodeHalf hf s = .next t) : UnitsOk t := by
  have hp := encodeSlots_progress h (totalUnits_lt hc hu.count) hu.progress
  have hlen := encodeSlots_length h
  have hsym := encodeSlots_keeps_symbols h hu.symbols
  rw [encodeHalf_frame h]
  exact {
    length := hlen.trans hu.length
    symbols := hsym
    progress := hp ▸ Nat.min_le_right ..
    count := hu.count
    array := hu.array }

theorem Inv.inited_of_sending {s : State} (h : Inv s) (hs : s.tx = .sending) : s.inited = true := by
  obtain ⟨-, -, -, hinit⟩ := h.control
  cases hi : s.inited with
  | true => rfl
  | false => exact absurd (hs.symm.trans (hinit hi).1) nofun

theorem Inv.unitsOk {s : State} (h : Inv s) (hs : s.tx = .sending) : UnitsOk s := by
  obtain ⟨hp, hn, ha⟩ := h.counters.1 hs
  exact ⟨h.buf_length, h.buffer.1 (h.inited_of_sending hs), hp, hn, ha⟩

/-- A handler's refill while sending. -/
theorem Inv.encodeHalf {hf : Half} {s t : State} (h : Inv s) (hs : s.tx = .sending) (he : encodeHalf hf s = .next t) :
    Inv t := by
  have hu := encodeHalf_keeps_unitsOk h.config (h.unitsOk hs) he
  have hframe := encodeHalf_frame he
  rw [hframe] at hu ⊢
  exact {
    config := h.config
    regs := ⟨hu.length, h.rdidx_lt, h.tick_lt⟩
    memory := h.memory
    control := h.control
    events := h.events
    buffer := ⟨fun _ => hu.symbols, fun hcl => absurd (hs.symm.trans hcl) nofun⟩
    counters := ⟨fun _ => ⟨hu.progress, hu.count, hu.array⟩, h.counters.2⟩
    port := h.port }

/-- The reference stored by an accepted SEND, its P at 0, starts a transmission that fits. -/
theorem storeReference_unitsOk {base : LedIndex} {count : Count} {s : State} (h : Inv s) (hi : s.inited = true)
    (hb : badArgument s.cfg base count = false) : UnitsOk (storeReference base count s) := by
  obtain ⟨hn, ha⟩ := (badArgument_eq_false ..).mp hb
  exact ⟨h.buf_length, h.buffer.1 hi, Nat.zero_le _, hn, ha⟩

theorem acceptSend_unitsOk {base : LedIndex} {count : Count} {s t : State} (h : Inv s) (hi : s.inited = true)
    (hb : badArgument s.cfg base count = false) (ha : acceptSend base count s = .next t) : UnitsOk t := by
  obtain ⟨s1, s2, h1, h2, rfl⟩ := acceptSend_cases ha
  have hu1 := encodeHalf_keeps_unitsOk (s := storeReference base count s) h.config (storeReference_unitsOk h hi hb) h1
  have hc1 : s1.cfg.wf = true := by rw [encodeHalf_frame h1]; exact h.config
  obtain ⟨hlen, hsym, hp, hn, hr⟩ := encodeHalf_keeps_unitsOk hc1 hu1 h2
  exact ⟨hlen, hsym, hp, hn, hr⟩

theorem Inv.acceptSend {base : LedIndex} {count : Count} {s t : State} (h : Inv s) (hi : s.inited = true)
    (hb : badArgument s.cfg base count = false) (ha : acceptSend base count s = .next t) : Inv t := by
  have hu := acceptSend_unitsOk h hi hb ha
  have hframe := acceptSend_frame ha
  obtain ⟨-, -, hgen, -⟩ := h.control
  rw [hframe] at hu ⊢
  exact {
    config := h.config
    regs := ⟨hu.length, config_n_pos h.config, h.tick_lt⟩
    memory := h.memory
    control := ⟨nofun, by simp, hgen, fun hi' => absurd (hi.symm.trans hi') nofun⟩
    events := ⟨nofun, nofun⟩
    buffer := ⟨fun _ => hu.symbols, nofun⟩
    counters := ⟨fun _ => ⟨hu.progress, hu.count, hu.array⟩, nofun⟩
    port := ⟨nofun, nofun⟩ }

/-! ### The transfer and the tick -/

/-- No transfer raises both events: a half holds at least one entry. -/
theorem not_raisesHalf_and_raisesWrap {s : State} (hc : s.cfg.wf = true) :
    ¬(raisesHalf s = true ∧ raisesWrap s = true) := by
  rw [raisesHalf_iff, raisesWrap_iff]
  rintro ⟨hh, hw⟩
  have hdouble := config_half_double _ hc
  obtain ⟨-, hn, -⟩ := (config_wf_iff _).mp hc
  omega

/-- A transfer that is no Overrun leaves at most one event pending (R29, R166). -/
theorem moveEntry_one_event {s : State} (h : Inv s) (ho : overruns s = false) (v : Val) :
    ¬((moveEntry v s).halfPend = true ∧ (moveEntry v s).wrapPend = true) := by
  have hone := h.events.1
  have hnot := not_raisesHalf_and_raisesWrap h.config
  have hfree : raisesHalf s = true ∨ raisesWrap s = true → s.halfPend = false ∧ s.wrapPend = false := by
    rw [raisesHalf_iff, raisesWrap_iff]
    exact (overruns_eq_false s).mp ho
  rw [moveEntry_halfPend, moveEntry_wrapPend, Bool.or_eq_true, Bool.or_eq_true]
  rintro ⟨hh | hh, hw | hw⟩
  · exact hone ⟨hh, hw⟩
  · exact absurd (hh.symm.trans (hfree (.inr hw)).1) nofun
  · exact absurd (hw.symm.trans (hfree (.inl hh)).2) nofun
  · exact hnot ⟨hh, hw⟩

theorem Inv.moveEntry {s : State} (h : Inv s) (hbusy : s.engine = .busy) (ho : overruns s = false) (v : Val) :
    Inv (moveEntry v s) where
  config := h.config
  regs := ⟨h.buf_length, Nat.mod_lt _ (config_n_pos h.config), h.tick_lt⟩
  memory := h.memory
  control := h.control
  events := ⟨moveEntry_one_event h ho v, fun hready => absurd (hbusy.symm.trans hready) nofun⟩
  buffer := h.buffer
  counters := h.counters
  port := h.port

theorem Inv.drivePin {s : State} (h : Inv s) : Inv (drivePin s) where
  config := h.config
  regs := ⟨h.buf_length, h.rdidx_lt, Nat.mod_lt _ (config_period_pos h.config)⟩
  memory := h.memory
  control := h.control
  events := h.events
  buffer := h.buffer
  counters := h.counters
  port := h.port

/-! ### One rule per agent -/

/-- A word held for a SEND has passed the argument check (R122). -/
theorem Inv.argument_of_held_send {s : State} (h : Inv s) {base : LedIndex} {count : Count} (hp : s.hphase = .waitSend)
    (hw : s.hcmd = sendWord base count) : badArgument s.cfg base count = false := by
  obtain ⟨-, hb⟩ := h.port.1 hp
  simpa [hw] using hb

theorem HostEffect.keeps_inv {i : Instr} {s t : State} (h : Inv s) (he : HostEffect s i t) : Inv t := by
  cases he with
  | answered | waitEnded | waitRepeated | rejected => exact h.of_unread rfl
  | spun => exact h
  | timedOut => exact (h.of_unread rfl).freePort
  | stored a r g b => exact h.setLedmem (ledWrite_wf _ _ _ h.memory a.isLt)
  | sendHeld hi hb => exact h.holdWord hi (portOk_holdWord_send hb)
  | clearHeld hi hb =>
    exact (h.setLedmem (zeroLeds_wf_of_argument h.memory hb)).holdWord hi (portOk_holdWord_clear hb)
  | initialised hp =>
    exact inv_beginClear h.config h.tick_lt h.memory rfl rfl (by simp [PortOk, hp])
  | sendAccepted hi hp hw _ ha => exact h.acceptSend hi (h.argument_of_held_send hp hw) ha
  | clearAccepted hi =>
    obtain ⟨-, -, hgen, -⟩ := h.control
    exact (inv_beginClear h.config h.tick_lt h.memory hi (hgen.trans hi) h.port).freePort

theorem execEvHalf_keeps_inv {s t : State} (h : Inv s) (he : execEvHalf s = .next t) : Inv t := by
  obtain ⟨-, hh, hcases⟩ := execEvHalf_cases he
  have hw : s.wrapPend = false := by simpa [hh] using h.events.1
  rcases hcases with ⟨hs, -, he⟩ | ⟨-, rfl⟩ | ⟨-, rfl⟩
  · exact h.ackHalf.encodeHalf hs he
  · exact h.ackHalf.stopIdle rfl hw
  · exact h.ackHalf

theorem execEvWrap_keeps_inv {s t : State} (h : Inv s) (he : execEvWrap s = .next t) : Inv t := by
  obtain ⟨-, hw, hcases⟩ := execEvWrap_cases he
  have hh : s.halfPend = false := by simpa [hw] using h.events.1
  rcases hcases with ⟨hs, -, he⟩ | ⟨-, rfl⟩ | ⟨-, rfl⟩ | ⟨-, hl, rfl⟩ | ⟨-, -, rfl⟩
  · exact h.ackWrap.encodeHalf hs he
  · exact h.ackWrap.stopIdle hh rfl
  · exact h.ackWrap
  · exact h.ackWrap.countCycle fun _ => hl
  · exact (h.ackWrap.stopIdle hh rfl).countCycle nofun

theorem execEngXfer_keeps_inv {s t : State} (h : Inv s) (he : execEngXfer s = .next t) : Inv t := by
  obtain ⟨-, hr, ho, v, -, rfl⟩ := execEngXfer_cases he
  exact h.moveEntry ((engineRuns_iff s).mp hr).1 ho v

theorem execGenTick_keeps_inv {s t : State} (h : Inv s) (he : execGenTick s = .next t) : Inv t := by
  obtain ⟨-, -, u, hu, rfl⟩ := execGenTick_cases he
  refine Inv.drivePin ?_
  rcases startPeriod_cases hu with ⟨-, rfl⟩ | ⟨-, -, rfl⟩ | ⟨-, hbusy, ho, v, -, rfl⟩
  · exact h
  · exact h.of_unread rfl
  · exact (h.moveEntry hbusy ho v).of_unread rfl

theorem exec_keeps_inv {i : Instr} {s t : State} (hi : RunByTurn i) (h : Inv s) (he : exec i s = .next t) : Inv t := by
  cases hi with
  | host hi => exact (exec_hostEffect hi he).keeps_inv h
  | evHalf => exact execEvHalf_keeps_inv h he
  | evWrap => exact execEvWrap_keeps_inv h he
  | engXfer => exact execEngXfer_keeps_inv h he
  | genTick => exact execGenTick_keeps_inv h he

/-- Settles O45: the invariant does not read the schedule that a turn moves on, and every operation a turn runs keeps it. -/
theorem stepKeepsInvariant : Obligations.StepKeepsInvariant := by
  intro s t h hstep
  obtain ⟨u, l, ts, n, rfl, rfl | ⟨i, hi, he⟩⟩ := step_runs hstep
  · exact h.of_unread rfl
  · exact exec_keeps_inv hi (h.of_unread rfl) he

end Sys2Proof.Machine
end

section
/-! PROOFS. The memories (20_memory.md): the slack entries of the Transfer Buffer, which the encoder never reaches (R58), and what
the operations store in the LED space (R68). -/

namespace Sys2Proof.Machine

/-! ### Slack entries -/

/-- A slack entry of either half lies outside the slots of each half. -/
theorem slack_outside_slots {c : Config} (hf h : Half) {i : Nat} (hlo : halfBase c h + unitSize * c.k ≤ i)
    (hhi : i < halfBase c h + c.half) : i < slotBase c hf 0 ∨ slotBase c hf (0 + c.k) ≤ i := by
  have hfit := config_slots_fit c
  have hslots := halfBase_eq c hf
  have hslack := halfBase_eq c h
  simp only [slotBase, unitSize] at hlo ⊢
  omega

theorem encodeHalf_keeps_slack {hf : Half} {s t : State} (hs : SlackOk s) (he : encodeHalf hf s = .next t) : SlackOk t := by
  have hout := encodeSlots_outside he
  rw [encodeHalf_frame he]
  intro hi h i hlo hhi
  exact (hout i (slack_outside_slots hf h hlo hhi)).trans (hs hi h i hlo hhi)

theorem acceptSend_keeps_slack {base : LedIndex} {count : Count} {s t : State} (hs : SlackOk s)
    (ha : acceptSend base count s = .next t) : SlackOk t := by
  obtain ⟨s1, s2, h1, h2, rfl⟩ := acceptSend_cases ha
  have hs1 : SlackOk s1 := encodeHalf_keeps_slack (s := storeReference base count s) hs h1
  have hs2 : SlackOk s2 := encodeHalf_keeps_slack hs1 h2
  exact hs2

theorem half_in_buffer {c : Config} (hc : c.wf = true) (h : Half) : halfBase c h + c.half ≤ c.n := by
  have hdouble := config_half_double c hc
  rcases halfBase_eq c h with ⟨hb, -⟩ | ⟨hb, -⟩ <;> omega

/-- A clear fills the slack entries with the rest of the buffer (R120, R128). -/
theorem beginClear_slackOk {s : State} (hc : s.cfg.wf = true) : SlackOk (beginClear s) := by
  intro _ h i _ hhi
  exact List.getElem?_replicate_of_lt (Nat.lt_of_lt_of_le hhi (half_in_buffer hc h))

/-- A turn's operation leaves BUF alone, encodes, or fills the whole buffer. -/
theorem exec_keeps_slack {i : Instr} {s t : State} (hi : RunByTurn i) (h : exec i s = .next t) (hc : s.cfg.wf = true)
    (hs : SlackOk s) : SlackOk t := by
  cases hi with
  | host hi =>
    cases exec_hostEffect hi h with
    | initialised => exact beginClear_slackOk (s := setUp s) hc
    | clearAccepted => exact beginClear_slackOk hc
    | sendAccepted _ _ _ _ ha => exact acceptSend_keeps_slack hs ha
    | _ => exact hs
  | evHalf =>
    obtain ⟨-, -, ⟨-, -, he⟩ | ⟨-, rfl⟩ | ⟨-, rfl⟩⟩ := execEvHalf_cases h
    · exact encodeHalf_keeps_slack (s := ackHalf s) hs he
    all_goals exact hs
  | evWrap =>
    obtain ⟨-, -, ⟨-, -, he⟩ | ⟨-, rfl⟩ | ⟨-, rfl⟩ | ⟨-, -, rfl⟩ | ⟨-, -, rfl⟩⟩ := execEvWrap_cases h
    · exact encodeHalf_keeps_slack (s := ackWrap s) hs he
    all_goals exact hs
  | engXfer => obtain ⟨-, -, -, v, -, rfl⟩ := execEngXfer_cases h; exact hs
  | genTick =>
    obtain ⟨-, -, u, hu, rfl⟩ := execGenTick_cases h
    rcases startPeriod_cases hu with ⟨-, rfl⟩ | ⟨-, -, rfl⟩ | ⟨-, -, -, v, -, rfl⟩ <;> exact hs

/-- Settles O47: the turn leaves the buffer alone, and the operation it runs keeps W0 in the slack entries. -/
theorem slackStaysLogicalZero : Obligations.SlackStaysLogicalZero := by
  intro s t hinv hs h
  obtain ⟨u, l, ts, n, rfl, rfl | ⟨i, hi, he⟩⟩ := step_runs h
  · exact hs
  · exact exec_keeps_slack hi he hinv.config hs

/-! ### The LED space -/

/-- A CLEAR that waits or is accepted stores nothing: the array was zeroed when it was presented (R126, R128). -/
theorem execClear_held_keeps_ledmem {base : LedIndex} {count : Count} {s t : State} (hp : s.hphase ≠ .free)
    (h : execClear base count s = .next t) : t.ledmem = s.ledmem := by
  obtain ⟨-, -, ⟨hfree, -⟩ | ⟨-, -, h⟩⟩ := execClear_cases h
  · exact absurd hfree hp
  · rcases waitAtPort_cases h with ⟨-, ha⟩ | ⟨-, -, rfl⟩ | ⟨-, -, rfl⟩
    · cases ha; rfl
    · rfl
    · rfl

/-- What an operation does to the LED space: nothing; the zeroing of a presented CLEAR; or the store of LEDW. -/
theorem exec_ledmem_cases {i : Instr} {s t : State} (h : exec i s = .next t) :
    t.ledmem = s.ledmem ∨
    (∃ base count, i = .clear base count ∧ s.hphase = .free ∧
      t.ledmem = zeroLeds s.ledmem base.toNat count.toNat) ∨
    (∃ a r g b, i = .ledw a r g b ∧ t.ledmem = ledWrite s.ledmem a.toNat (r ++ g ++ b)) := by
  by_cases hi : IsHostInstr i
  · cases exec_hostEffect hi h with
    | stored a r g b => exact .inr (.inr ⟨a, r, g, b, rfl, rfl⟩)
    | @clearHeld base count =>
      by_cases hp : s.hphase = .free
      · exact .inr (.inl ⟨base, count, rfl, hp, rfl⟩)
      · exact .inl (execClear_held_keeps_ledmem hp h)
    | sendAccepted _ _ _ _ ha => rw [acceptSend_frame ha]; exact .inl rfl
    | _ => exact .inl rfl
  · rw [exec_frame_of_not_host hi h]; exact .inl rfl

/-- Settles O55: each of the two stores leaves the bytes outside its elements. -/
theorem ledSpaceFrame : Obligations.LedSpaceFrame := by
  intro i s t x h
  rcases exec_ledmem_cases h with hm | ⟨base, count, rfl, hp, hm⟩ | ⟨a, r, g, b, rfl, hm⟩
  · rw [hm]
    exact ⟨fun _ _ _ _ _ => rfl, fun _ _ _ _ => rfl, fun _ _ _ _ _ _ => rfl, fun _ _ => rfl⟩
  · refine ⟨?_, fun _ _ _ hne => absurd hp hne, nofun, fun hne => absurd rfl (hne base count)⟩
    rintro _ _ ⟨⟩ - hx
    rw [hm]; exact memRead_zeroLeds_other _ _ _ _ hx
  · refine ⟨nofun, nofun, ?_, fun _ hne => absurd rfl (hne a r g b)⟩
    rintro _ _ _ _ ⟨⟩ hx
    rw [hm]; exact memRead_ledWrite_other _ _ _ _ hx

end Sys2Proof.Machine
end

section
/-! PROOFS. The encodings (30_encoding.md): the opcode map R83 row by row, its mask and match, the reserved words (R84), the event
vector (R85), and the inverse of the symbol code (R89). -/

namespace Sys2Proof

/-! ### The opcode map, one equation per row -/

theorem decodeCmd_ready {w : CmdWord} (h : opField w = 0) : decodeCmd w = .ok .ready := by
  simp [decodeCmd, h]

theorem decodeCmd_send {w : CmdWord} (h : opField w = 1) :
    decodeCmd w = .ok (.send (baseField w) (countField w)) := by
  simp [decodeCmd, h]

theorem decodeCmd_clear {w : CmdWord} (h : opField w = 2) :
    decodeCmd w = .ok (.clear (baseField w) (countField w)) := by
  simp [decodeCmd, h]

theorem decodeCmd_init {w : CmdWord} (h : opField w = 3) : decodeCmd w = .ok .init := by
  simp [decodeCmd, h]

theorem decodeCmd_reserved {w : CmdWord} (h : 4 ≤ (opField w).toNat) :
    decodeCmd w = .error (.reservedOp (opField w)) := by
  rw [decodeCmd]
  split
  case h_5 => rfl
  all_goals omega

/-- Every word is of one of the four rows or reserved (R84). -/
theorem opField_cases (w : CmdWord) :
    opField w = 0 ∨ opField w = 1 ∨ opField w = 2 ∨ opField w = 3 ∨ 4 ≤ (opField w).toNat := by
  bv_omega

/-! ### Words and instructions -/

/-- A command word is made of its three fields (R81, R92). -/
theorem cmdWordOf_fields (w : CmdWord) : cmdWordOf (opField w) (baseField w) (countField w) = w := by
  apply BitVec.eq_of_toNat_eq
  rw [cmdWordOf_toNat, opField_toNat, baseField_toNat, countField_toNat]; omega

/-- Settles O1: each encoding carries the OP of its row, and its fields are the operands. -/
theorem encodeThenDecode : Obligations.EncodeThenDecode := by
  intro i e h
  cases i <;> cases h
  case ready => rw [decode, decodeCmd_ready (opField_cmdWordOf ..)]
  case send base count =>
    rw [decode, decodeCmd_send (opField_cmdWordOf ..), baseField_cmdWordOf, countField_cmdWordOf]
  case clear base count =>
    rw [decode, decodeCmd_clear (opField_cmdWordOf ..), baseField_cmdWordOf, countField_cmdWordOf]
  case init => rw [decode, decodeCmd_init (opField_cmdWordOf ..)]
  case evHalf => rfl
  case evWrap => rfl

/-- Settles O2: the row gives OP, and for SEND and CLEAR the operands are the other two fields of the word. -/
theorem decodeThenEncode : Obligations.DecodeThenEncode := by
  intro w i h
  rcases opField_cases w with hop | hop | hop | hop | hop
  · cases (decodeCmd_ready hop).symm.trans h
    exact ⟨_, rfl, (opField_cmdWordOf ..).trans hop.symm, fun hne => absurd rfl hne⟩
  · cases (decodeCmd_send hop).symm.trans h
    exact ⟨w, by rw [encode, ← hop, cmdWordOf_fields], rfl, fun _ _ => rfl⟩
  · cases (decodeCmd_clear hop).symm.trans h
    exact ⟨w, by rw [encode, ← hop, cmdWordOf_fields], rfl, fun _ _ => rfl⟩
  · cases (decodeCmd_init hop).symm.trans h
    exact ⟨_, rfl, (opField_cmdWordOf ..).trans hop.symm, fun _ hne => absurd rfl hne⟩
  · cases (decodeCmd_reserved hop).symm.trans h

/-- A word that decodes to an instruction has the OP of the instruction's encoding. -/
theorem opField_of_decodeCmd {w : CmdWord} {i : Instr} {op : BitVec 4} {base : LedIndex} {count : Count}
    (hd : decodeCmd w = .ok i) (he : encode i = some (.cmd (cmdWordOf op base count))) : opField w = op := by
  obtain ⟨w', hw', hop, -⟩ := decodeThenEncode w i hd
  cases hw'.symm.trans he
  rw [← hop, opField_cmdWordOf]

/-! ### Mask and match -/

/-- The mask of R83 keeps OP and clears BASE and COUNT. -/
theorem and_opMask (w : CmdWord) : w &&& 0xF0000000#32 = cmdWordOf (opField w) 0 0 := by
  have hw : opField w ++ w.extractLsb' 0 28 = w :=
    (BitVec.extractLsb'_append_extractLsb'_eq_extractLsb' rfl).trans BitVec.extractLsb'_eq_self
  have hop : (opField w ++ 0#28).toNat = (opField w).toNat * 2 ^ 28 := by
    rw [BitVec.toNat_append, BitVec.toNat_zero, Nat.or_zero, Nat.shiftLeft_eq]
  have hmatch : (cmdWordOf (opField w) 0 0).toNat = (opField w).toNat * 2 ^ 28 := by simp [cmdWordOf_toNat]
  calc w &&& 0xF0000000#32
      = (opField w ++ w.extractLsb' 0 28) &&& (BitVec.allOnes 4 ++ 0#28) := by rw [hw]; rfl
    _ = opField w ++ 0#28 := by rw [BitVec.and_append, BitVec.and_allOnes, BitVec.and_zero]
    _ = cmdWordOf (opField w) 0 0 := BitVec.eq_of_toNat_eq (hop.trans hmatch.symm)

theorem and_opMask_eq_iff (w : CmdWord) (op : BitVec 4) :
    w &&& 0xF0000000#32 = cmdWordOf op 0 0 ↔ opField w = op := by
  rw [and_opMask]
  exact ⟨fun h => by simpa using congrArg opField h, fun h => by rw [h]⟩

/-- Settles O3: for each row, decoding to it and matching under the mask both say which OP the word has. -/
theorem decodeFollowsOpcodeMap : Obligations.DecodeFollowsOpcodeMap := by
  intro w
  refine ⟨?ready, ?send, ?clear, ?init⟩
  case ready => exact Iff.trans ⟨(opField_of_decodeCmd · rfl), decodeCmd_ready⟩ (and_opMask_eq_iff w 0).symm
  case send => exact Iff.trans ⟨(opField_of_decodeCmd · rfl), decodeCmd_send⟩ (and_opMask_eq_iff w 1).symm
  case clear => exact Iff.trans ⟨(opField_of_decodeCmd · rfl), decodeCmd_clear⟩ (and_opMask_eq_iff w 2).symm
  case init => exact Iff.trans ⟨(opField_of_decodeCmd · rfl), decodeCmd_init⟩ (and_opMask_eq_iff w 3).symm

end Sys2Proof

namespace Sys2Proof.Machine

/-! ### Reserved words at the command port -/

theorem fetch_host_word_refused {s : State} {w : CmdWord} {r : Reject} {rest : List HostItem} (hp : s.hphase = .free)
    (hs : s.script = .word w :: rest) (hd : decodeCmd w = .error r) : fetch .host s = .refused (.reservedOp w) := by
  simp only [fetch, fetchHost, hp, hs, fetchWord, hd]

theorem runTurn_of_fetch_refused {a : Agent} {s : State} {r : Refusal} (hf : fetch a s = .refused r) :
    runTurn a s = .refused r := by
  simp only [runTurn, hf]

/-- Settles O4: OP ≥ 4 is the decoder's last row, which the HOST's fetch refuses; below 4 one of the four rows applies. -/
theorem reservedOpRefused : Obligations.ReservedOpRefused := by
  intro w
  rw [← opField_toNat]
  refine ⟨fun hop => ⟨decodeCmd_reserved hop, ?refused⟩, fun hop => ?command⟩
  case refused =>
    intro s rest later hc hp hs ht
    rw [step_of_turns hc ht]
    exact runTurn_of_fetch_refused (fetch_host_word_refused hp hs (decodeCmd_reserved hop))
  case command =>
    rcases opField_cases w with h | h | h | h | h
    · exact ⟨_, decodeCmd_ready h, rfl⟩
    · exact ⟨_, decodeCmd_send h, rfl⟩
    · exact ⟨_, decodeCmd_clear h, rfl⟩
    · exact ⟨_, decodeCmd_init h, rfl⟩
    · omega

/-- Settles O5: the listed words are computed, and the word formula is that of `cmdWordOf`. -/
theorem commandWordsOfVectors : Obligations.CommandWordsOfVectors :=
  ⟨rfl, rfl, rfl, rfl, rfl, rfl, rfl, rfl, rfl, rfl, rfl, rfl, rfl, rfl, rfl, rfl, rfl,
    fun base count => ⟨cmdWordOf_toNat 1 base count, cmdWordOf_toNat 2 base count⟩⟩

/-! ### The event vector -/

theorem fetch_handler_pass {s : State} (hd : decodeEvt (eventVector s) = .error .noEvent) : fetch .handler s = .pass := by
  simp only [fetch, fetchHandler, hd]

theorem fetch_handler_fault {s : State} (hd : decodeEvt (eventVector s) = .error .bothEvents) :
    fetch .handler s = .fault .bothEventsPending := by
  simp only [fetch, fetchHandler, hd]

theorem eventVector_eq {s : State} {wrap half : Bool} (hw : s.wrapPend = wrap) (hh : s.halfPend = half) :
    eventVector s = BitVec.ofBool wrap ++ BitVec.ofBool half := by
  rw [eventVector, hw, hh]

/-- Settles O6: the two flags fix the vector, and the vector decides the HANDLER's turn. -/
theorem eventVectorSelectsHandler : Obligations.EventVectorSelectsHandler := by
  intro s
  refine ⟨fun hw hh => fetch_handler_pass ?_, fun hw hh => fetch_handler_run ?_, fun hw hh => fetch_handler_run ?_,
    fun hw hh => fetch_handler_fault ?_⟩
  all_goals rw [eventVector_eq hw hh]; rfl

/-! ### The inverse symbol code -/

/-- Bit inverts Sym, as W0 and W1 differ (R11, R88, R89). -/
theorem bitOf_sym {c : Config} (hc : c.wf = true) (b : Bool) : bitOf c (sym c b) = b := by
  obtain ⟨-, -, -, hlt, -⟩ := (config_wf_iff c).mp hc
  have hne : c.w0 ≠ c.w1 := fun h => by rw [h] at hlt; exact absurd hlt (Nat.lt_irrefl _)
  cases b <;> simp [bitOf, sym, hne]

/-- The symbols of the n bits of v from bit lo up, most significant first. -/
def fieldSymbols (c : Config) (v : Colour) (lo : Nat) : Nat → List Val
  | 0 => []
  | n + 1 => sym c (v.getLsbD (lo + n)) :: fieldSymbols c v lo n

@[simp] theorem fieldSymbols_length (c : Config) (v : Colour) (lo n : Nat) : (fieldSymbols c v lo n).length = n := by
  induction n with
  | zero => rfl
  | succ n ih => rw [fieldSymbols, List.length_cons, ih]

theorem bitsValue_fieldSymbols {c : Config} (hc : c.wf = true) (v : Colour) (lo n : Nat) :
    bitsValue c (fieldSymbols c v lo n) = v.toNat / 2 ^ lo % 2 ^ n := by
  induction n with
  | zero => simp [fieldSymbols, bitsValue, Nat.mod_one]
  | succ n ih =>
    rw [fieldSymbols, bitsValue, bitOf_sym hc, fieldSymbols_length, ih, Nat.mod_pow_succ, BitVec.getLsbD,
      Nat.toNat_testBit, Nat.div_div_eq_div_mul, ← Nat.pow_add]
    ring

theorem byteOf_fieldSymbols {c : Config} (hc : c.wf = true) (v : Colour) (lo : Nat) :
    byteOf c (fieldSymbols c v lo 8) = v.extractLsb' lo 8 := by
  rw [byteOf, bitsValue_fieldSymbols hc]
  apply BitVec.eq_of_toNat_eq
  rw [BitVec.toNat_ofNat, Nat.mod_mod, BitVec.extractLsb'_toNat, Nat.shiftRight_eq_div_pow]

/-- A colour is its three channels, red first (R16). -/
theorem colour_eq_channels (v : Colour) : v.extractLsb' 16 8 ++ v.extractLsb' 8 8 ++ v.extractLsb' 0 8 = v := by
  have hhigh : v.extractLsb' 16 8 ++ v.extractLsb' 8 8 = v.extractLsb' 8 16 :=
    BitVec.extractLsb'_append_extractLsb'_eq_extractLsb' rfl
  rw [hhigh]
  exact (BitVec.extractLsb'_append_extractLsb'_eq_extractLsb' rfl).trans BitVec.extractLsb'_eq_self

theorem colourOf_dataUnit {c : Config} (hc : c.wf = true) (v : Colour) : colourOf c (dataUnit c v) = v := by
  have hred : (dataUnit c v).take 8 = fieldSymbols c v 16 8 := rfl
  have hgreen : ((dataUnit c v).drop 8).take 8 = fieldSymbols c v 8 8 := rfl
  have hblue : ((dataUnit c v).drop 16).take 8 = fieldSymbols c v 0 8 := rfl
  rw [colourOf, hred, hgreen, hblue, byteOf_fieldSymbols hc, byteOf_fieldSymbols hc, byteOf_fieldSymbols hc,
    colour_eq_channels]

/-- Every symbol of (0, 0, 0) is W0 (R90). -/
theorem deadUnit_eq_dataUnit_zero (c : Config) : deadUnit c = dataUnit c 0 := by
  have hsym : ∀ k, sym c ((0 : Colour).getLsbD (23 - k)) = c.w0 := fun k => by simp [sym]
  simp only [deadUnit, dataUnit, hsym, List.map_const', List.length_range]

/-- Settles O7: Bit inverts Sym, so each channel's byte is read back and the three bytes are the colour. -/
theorem unitDecodesToColour : Obligations.UnitDecodesToColour := fun c v hc =>
  ⟨colourOf_dataUnit hc v, deadUnit_eq_dataUnit_zero c⟩

end Sys2Proof.Machine
end

section
/-! PROOFS. The Bit Encoder (40_bit_encoder.md): the three cases of ENCODE_UNIT, in the order R100 tests them (R101 to R103), and
what ENCODE_HALF writes and leaves alone (R104 to R106). -/

namespace Sys2Proof.Machine

/-! ### One unit in its slot -/

theorem writeUnit_inside {s : State} {hf : Half} {j : Nat} {u : List Val} (hc : s.cfg.wf = true) (hj : j < s.cfg.k)
    (hlen : s.buf.length = s.cfg.n) (hu : u.length = 24) (k : Nat) (hk : k < 24) :
    (writeUnit (slotBase s.cfg hf j) u s).buf[slotBase s.cfg hf j + k]? = u[k]? := by
  have hslot := slot_in_buffer s.cfg hc hf j hj
  exact bufWrite_inside _ _ _ _ (by omega) (by omega)

theorem writeUnit_outside {base : Nat} {u : List Val} {s : State} (hu : u.length = 24) (i : Nat)
    (hi : i < base ∨ base + 24 ≤ i) : (writeUnit base u s).buf[i]? = s.buf[i]? :=
  bufWrite_outside _ _ _ _ (hu ▸ hi)

theorem writeUnit_progress {base : Nat} {u : List Val} {s : State} (hp : s.p.toNat + 1 < 2 ^ 16) :
    (writeUnit base u s).p.toNat = s.p.toNat + 1 := BitVec.toNat_add_of_lt hp

/-! ### ENCODE_UNIT -/

/-- The data case asks only that the current LED exists (R52, R101). -/
theorem encodeUnit_data {hf : Half} {j : Nat} {s : State} (hp : s.p.toNat < s.ledCount.toNat)
    (hled : currentLed s < ledmemSize) :
    encodeUnit hf j s = .next (writeUnit (slotBase s.cfg hf j) (dataUnit s.cfg (ledRead s.ledmem (currentLed s))) s) := by
  rw [encodeUnit, if_pos hp, if_pos hled]

theorem encodeUnit_dead {hf : Half} {j : Nat} {s : State} (hdata : s.ledCount.toNat ≤ s.p.toNat)
    (hp : s.p.toNat < totalUnits s) :
    encodeUnit hf j s = .next (writeUnit (slotBase s.cfg hf j) (deadUnit s.cfg) s) := by
  rw [encodeUnit, if_neg (Nat.not_lt.mpr hdata), if_pos hp]

/-- Settles O8: the data unit of the current LED stands in the slot, and P cannot wrap below LED_COUNT. -/
theorem encodeUnitDataCase : Obligations.EncodeUnitDataCase := fun s _ _ hc hj hlen hp hled =>
  have hu := dataUnit_length s.cfg (ledRead s.ledmem (currentLed s))
  ⟨_, (exec_encodeUnit_runs hc hj).trans (encodeUnit_data hp hled),
    fun k hk => (writeUnit_inside hc hj hlen hu k hk).trans (dataUnit_getElem? _ _ k hk),
    writeUnit_progress (Nat.lt_of_le_of_lt hp s.ledCount.isLt),
    writeUnit_outside hu, writeUnit_frame ..⟩

/-- Settles O9: a dead-time unit stands in the slot, and P cannot wrap below LED_COUNT + D. -/
theorem encodeUnitDeadTimeCase : Obligations.EncodeUnitDeadTimeCase := fun s _ _ hc hj hlen hdata hp hfit =>
  have hu := deadUnit_length s.cfg
  ⟨_, (exec_encodeUnit_runs hc hj).trans (encodeUnit_dead hdata hp),
    fun k hk => (writeUnit_inside hc hj hlen hu k hk).trans (deadUnit_getElem? _ k hk),
    writeUnit_progress (Nat.lt_of_le_of_lt hp hfit),
    writeUnit_outside hu, writeUnit_frame ..⟩

/-- Settles O10: with P at LED_COUNT + D or past it neither of the first two cases applies. -/
theorem encodeUnitExhaustedCase : Obligations.EncodeUnitExhaustedCase := fun _ _ _ hc hj hp =>
  (exec_encodeUnit_runs hc hj).trans (encodeUnit_exhausted hp)

/-! ### ENCODE_HALF -/

/-- Once the units are used up, no slot visited is written (R103). -/
theorem encodeSlots_exhausted {hf : Half} {count j : Nat} {s : State} (hp : totalUnits s ≤ s.p.toNat) :
    encodeSlots hf count j s = .next s := by
  induction count generalizing j with
  | zero => rfl
  | succ n ih => rw [encodeSlots, encodeUnit_exhausted hp, andThen_next, ih]

/-- The K slots of a half end inside the buffer (R55). -/
theorem slots_in_buffer (c : Config) (hc : c.wf = true) (hf : Half) : slotBase c hf c.k ≤ c.n := by
  have hfit := config_slots_fit c
  have hdouble := config_half_double c hc
  have hbase := halfBase_eq c hf
  simp only [slotBase, unitSize]
  omega

/-- Settles O11: the encoder visits slots 0 to K − 1, and each unit written moves P on by one. -/
theorem encodeHalfWritesUnits : Obligations.EncodeHalfWritesUnits := by
  intro s hf hc hlen ⟨harray, hfit⟩
  obtain ⟨t, ht⟩ := encodeSlots_runs (hf := hf) (count := s.cfg.k) (j := 0) harray
  refine ⟨t, (exec_encodeHalf_runs hc).trans ht, encodeSlots_progress ht hfit, fun hp => ?_, fun j k hj hk => ?_⟩
  · exact Host.Outcome.next.inj (ht.symm.trans (encodeSlots_exhausted hp))
  · have hfits : slotBase s.cfg hf (0 + s.cfg.k) ≤ s.buf.length := by
      rw [Nat.zero_add, hlen]; exact slots_in_buffer s.cfg hc hf
    simpa only [Nat.zero_add] using encodeSlots_inside ht hfit hfits j k hj hk

/-- Settles O12: outside slots 0 to K − 1 of its half the encoder writes no entry, and of the registers P alone. -/
theorem encodeHalfFrame : Obligations.EncodeHalfFrame := by
  intro s t hf h
  obtain ⟨-, he⟩ := execEncodeHalf_cases h
  refine ⟨fun i hi => encodeSlots_outside he i ?_, encodeSlots_length he, encodeHalf_frame he⟩
  simpa only [slotBase, unitSize, Nat.mul_zero, Nat.add_zero, Nat.zero_add] using hi

end Sys2Proof.Machine
end

section
/-! PROOFS. The HOST's commands and pseudo-instructions (41_transfer_state_machine.md R120 to R132): one rule per outcome of the
port and of each command, then the effects from these. -/

namespace Sys2Proof.Machine

/-! ### The wait at the port (R121, R123, R127) -/

theorem waitAtPort_accepts {accept : State → Result} {s : State} (hr : idleReady s = true) :
    waitAtPort accept s = accept s := if_pos hr

/-- A running engine is neither stalled nor STUCK, so the wait goes on (R203, R208). -/
theorem waitAtPort_spins {accept : State → Result} {s : State} (hr : idleReady s = false) (he : engineRuns s = true) :
    waitAtPort accept s = .next s := by
  obtain ⟨-, hg⟩ := (engineRuns_iff s).mp he
  have hstalled : engineStalled s = false := by simp [engineStalled, hg]
  have hstuck : hostStuck s = false := by simp [hostStuck, he]
  rw [waitAtPort, if_neg (by simp [hr]), if_neg (by simp [hstalled]), if_neg (by simp [hstuck])]

/-- Settles O34: the accept guard is false and the engine makes transfers, so both commands spin. -/
theorem waitingHostSpins : Obligations.WaitingHostSpins := by
  intro s base count hc hi hr hb hg
  have hspin : ∀ accept, waitAtPort accept s = .next s := fun _ =>
    waitAtPort_spins ((idleReady_eq_false s).mpr hr) ((engineRuns_iff s).mpr ⟨hb, hg⟩)
  exact ⟨fun hp hw => (exec_send_waits hc hi hp hw).trans (hspin _),
    fun hp hw => (exec_clear_waits hc hi hp hw).trans (hspin _)⟩

/-! ### Presentation (R122, R126) -/

theorem busyCheck_passes {s : State} (hn : s.cfg.nonblocking = false ∨ (s.tx = .idle ∧ s.engine = .ready)) :
    (s.cfg.nonblocking && !idleReady s) = false := by
  rcases hn with hn | hr
  · simp [hn]
  · simp [(idleReady_iff s).mpr hr]

theorem presentSend_holds {base : LedIndex} {count : Count} {s : State} (ha : badArgument s.cfg base count = false)
    (hn : (s.cfg.nonblocking && !idleReady s) = false) :
    presentSend base count s = .next (holdWord (sendWord base count) .waitSend s) := by
  rw [presentSend, if_neg (by simp [ha]), if_neg (by simp [hn])]

theorem presentClear_holds {base : LedIndex} {count : Count} {s : State} (ha : badArgument s.cfg base count = false)
    (hn : (s.cfg.nonblocking && !idleReady s) = false) (ho : overlapsBorrowed s base count = false) :
    presentClear base count s =
      .next (holdWord (clearWord base count) .waitClear (setLedmem (zeroLeds s.ledmem base.toNat count.toNat) s)) := by
  rw [presentClear, if_neg (by simp [ha]), if_neg (by simp [hn]), if_neg (by simp [ho])]

/-- Settles O29: the argument and Busy checks pass, and the word is held. -/
theorem sendPresented : Obligations.SendPresented := by
  intro s base count hc hi hp hmax hrange hn
  rw [exec_send_presents hc hi hp,
    presentSend_holds ((badArgument_eq_false ..).mpr ⟨hmax, hrange⟩) (busyCheck_passes hn)]
  rfl

/-- Settles O30: the three checks pass, the array is zeroed, and the word is held. -/
theorem clearPresented : Obligations.ClearPresented := by
  intro s base count hc hi hp hm hmax hrange hn hoverlap
  have ho : overlapsBorrowed s base count = false := by
    rwa [← Bool.not_eq_true, overlapsBorrowed_iff]
  have hrun := presentClear_holds ((badArgument_eq_false ..).mpr ⟨hmax, hrange⟩) (busyCheck_passes hn) ho
  exact ⟨_, (exec_clear_presents hc hi hp).trans hrun, fun a => ledRead_zeroLeds_same _ _ _ a hm hrange,
    memRead_zeroLeds_other _ _ _, rfl⟩

/-! ### SEND accepted (R124) -/

theorem halves_disjoint (c : Config) {h h' : Half} (hne : h ≠ h') :
    halfBase c h + c.half ≤ halfBase c h' ∨ halfBase c h' + c.half ≤ halfBase c h := by
  cases h <;> cases h' <;> simp [halfBase, halfIndex] at hne ⊢

/-- Encoding one half leaves the slots of the other alone (R104). -/
theorem encodeHalf_keeps_other_slots {hf h : Half} {s t : State} (he : encodeHalf hf s = .next t) (hne : h ≠ hf)
    {j k : Nat} (hj : j < s.cfg.k) (hk : k < 24) : t.buf[slotBase s.cfg h j + k]? = s.buf[slotBase s.cfg h j + k]? := by
  have hslot := slot_in_half s.cfg h j hj
  have hfit := config_slots_fit s.cfg
  have hhalves := halves_disjoint s.cfg hne
  refine encodeSlots_outside he _ ?_
  simp only [slotBase, unitSize] at hslot ⊢
  omega

/-- Slot j of the half encoded holds unit P + j while there is one, and else what it held (R103, R105). -/
theorem encodeHalf_slots {hf : Half} {s t : State} (he : encodeHalf hf s = .next t) (hc : s.cfg.wf = true)
    (hlen : s.buf.length = s.cfg.n) (hfit : totalUnits s < 2 ^ 16) {j k : Nat} (hj : j < s.cfg.k) (hk : k < 24) :
    t.buf[slotBase s.cfg hf j + k]? =
      if s.p.toNat + j < totalUnits s then (transmissionUnit s (s.p.toNat + j))[k]?
      else s.buf[slotBase s.cfg hf j + k]? := by
  have hfits : slotBase s.cfg hf (0 + s.cfg.k) ≤ s.buf.length := by
    rw [Nat.zero_add, hlen]; exact slots_in_buffer s.cfg hc hf
  simpa only [Nat.zero_add] using encodeSlots_inside he hfit hfits j k hj hk

section
variable {s s1 s2 : State} (hp : s.p.toNat = 0) (hfit : totalUnits s < 2 ^ 16) (h1 : encodeHalf .low s = .next s1)
  (h2 : encodeHalf .high s1 = .next s2)
include hp hfit h1 h2

/-- The two halves encoded from P = 0 hold the first 2K units, or as many as there are. -/
theorem encodeBothHalves_progress : s2.p.toNat = min (2 * s.cfg.k) (totalUnits s) := by
  have hp1 := encodeSlots_progress h1 hfit (by omega)
  obtain ⟨buf, p, rfl⟩ : ∃ buf p, s1 = { s with buf := buf, p := p } := ⟨_, _, encodeHalf_frame h1⟩
  have hp2 : s2.p.toNat = min (p.toNat + s.cfg.k) (totalUnits s) :=
    encodeSlots_progress h2 hfit (hp1 ▸ Nat.min_le_right ..)
  simp only [hp] at hp1
  omega

/-- Slot j of the low half holds unit j and slot j of the high half unit K + j, while there is one (R105). -/
theorem encodeBothHalves_slots (hc : s.cfg.wf = true) (hlen : s.buf.length = s.cfg.n) (h : Half) (j k : Nat)
    (hj : j < s.cfg.k) (hk : k < 24) :
    s2.buf[slotBase s.cfg h j + k]? =
      if halfIndex h * s.cfg.k + j < totalUnits s then (transmissionUnit s (halfIndex h * s.cfg.k + j))[k]?
      else s.buf[slotBase s.cfg h j + k]? := by
  have hp1 := encodeSlots_progress h1 hfit (by omega)
  have hlen1 := (encodeSlots_length h1).trans hlen
  have hframe : ∃ buf p, s1 = { s with buf := buf, p := p } := ⟨_, _, encodeHalf_frame h1⟩
  cases h with
  | low =>
    have hslot := encodeHalf_slots h1 hc hlen hfit hj hk
    obtain ⟨buf, p, rfl⟩ := hframe
    have hkept := encodeHalf_keeps_other_slots (h := .low) h2 nofun hj hk
    simpa only [halfIndex, Nat.zero_mul, hp] using hkept.trans hslot
  | high =>
    have hkept := encodeHalf_keeps_other_slots (h := .high) h1 nofun hj hk
    obtain ⟨buf, p, rfl⟩ := hframe
    have hslot : s2.buf[slotBase s.cfg .high j + k]? =
        if p.toNat + j < totalUnits s then (transmissionUnit s (p.toNat + j))[k]?
        else buf[slotBase s.cfg .high j + k]? := encodeHalf_slots h2 hc hlen1 hfit hj hk
    rw [hslot, hkept, halfIndex, Nat.one_mul]
    simp only [hp, Nat.zero_add] at hp1
    rcases Nat.le_total s.cfg.k (totalUnits s) with hle | hle
    · rw [hp1, Nat.min_eq_left hle]
    · rw [if_neg (by omega), if_neg (by omega)]

end

theorem encodeBothHalves_slack {s s1 s2 : State} (h1 : encodeHalf .low s = .next s1)
    (h2 : encodeHalf .high s1 = .next s2) (h : Half) (i : Nat) (hlo : halfBase s.cfg h + unitSize * s.cfg.k ≤ i)
    (hhi : i < halfBase s.cfg h + s.cfg.half) : s2.buf[i]? = s.buf[i]? := by
  have hout1 := encodeSlots_outside h1 i (slack_outside_slots .low h hlo hhi)
  obtain ⟨buf, p, rfl⟩ : ∃ buf p, s1 = { s with buf := buf, p := p } := ⟨_, _, encodeHalf_frame h1⟩
  exact (encodeSlots_outside h2 i (slack_outside_slots .high h hlo hhi)).trans hout1

/-- The accept step answers a next state when the array lies inside the LED space. -/
theorem acceptSend_runs {base : LedIndex} {count : Count} (s : State) (hr : base.toNat + count.toNat ≤ ledmemSize) :
    ∃ t, acceptSend base count s = .next t := by
  obtain ⟨s1, h1⟩ : ∃ s1, encodeHalf .low (storeReference base count s) = .next s1 := encodeSlots_runs hr
  obtain ⟨s2, h2⟩ : ∃ s2, encodeHalf .high s1 = .next s2 :=
    encodeSlots_runs (by rw [encodeHalf_frame h1]; exact hr)
  exact ⟨_, by rw [acceptSend, h1, andThen_next, h2, andThen_next]⟩

/-- Settles O32: the accept step encodes the low half from unit 0 and the high half from where the low half ended. -/
theorem sendAccepted : Obligations.SendAccepted := by
  intro s base count hc hi hp hw htx he hlen hrange hfit
  obtain ⟨t, ht⟩ := acceptSend_runs s hrange
  have hrun := (exec_send_waits hc hi hp hw).trans (waitAtPort_accepts ((idleReady_iff s).mpr ⟨htx, he⟩))
  have hframe := acceptSend_frame ht
  obtain ⟨s1, s2, h1, h2, rfl⟩ := acceptSend_cases ht
  have hunits : totalUnits (storeReference base count s) < 2 ^ 16 := hfit
  have hp := encodeBothHalves_progress rfl hunits h1 h2
  have hslots := encodeBothHalves_slots rfl hunits h1 h2 hc hlen
  have hslack := encodeBothHalves_slack h1 h2
  exact ⟨_, hrun.trans ht, hp, hslots, hslack, hframe⟩

/-! ### CLEAR accepted and INIT (R120, R128) -/

/-- Settles O33: a held CLEAR meets the accept guard and begins the physical clear. -/
theorem clearAccepted : Obligations.ClearAccepted := by
  intro s base count hc hi hp hw htx he
  rw [exec_clear_waits hc hi hp hw, waitAtPort_accepts ((idleReady_iff s).mpr ⟨htx, he⟩)]
  rfl

theorem exec_init_again {s : State} (hc : s.cfg.wf = true) (hi : s.inited = true) :
    exec .init s = .refused .alreadyInitialised := by
  show execInit s = _
  rw [execInit, guardConfig_ok hc, if_pos hi]

/-- Settles O24: the setup and the clear it begins write these registers and no other; INITED refuses a second INIT. -/
theorem initEffect : Obligations.InitEffect := fun _ hc =>
  ⟨fun hi hp => exec_init_runs hc hi hp, exec_init_again hc⟩

/-! ### READY and WAIT (R130, R131) -/

theorem exec_ready_before_init {s : State} (hc : s.cfg.wf = true) (hi : s.inited = false) :
    exec .ready s = .refused (.notInitialised "READY") := by
  show execReady s = _
  rw [execReady, guardConfig_ok hc, if_pos hi]

/-- RESULT is the answer just given. -/
theorem giveAnswer_result (s : State) : (giveAnswer s).result = some (decide (s.tx = .idle)) := List.getLast?_concat

/-- Settles O37: READY appends one answer, which is then the last. -/
theorem readyAnswersIdle : Obligations.ReadyAnswersIdle := fun s hc =>
  ⟨fun hi hp => ⟨_, exec_ready_runs hc hi hp, rfl, giveAnswer_result s⟩, exec_ready_before_init hc⟩

theorem giveAnswer_eq {s : State} {b : Bool} (hb : decide (s.tx = .idle) = b) :
    giveAnswer s = { s with answers := s.answers ++ [b] } := by
  rw [giveAnswer, hb, answer]

theorem exec_wait_ends {s : State} (hc : s.cfg.wf = true) (hi : s.inited = true) (hp : s.hphase = .free)
    (htx : s.tx = .idle) : exec .wait s = exec .ready s := by
  rw [exec_wait_runs hc hi hp, exec_ready_runs hc hi hp, if_pos htx]

theorem exec_wait_repeats {s : State} (hc : s.cfg.wf = true) (hi : s.inited = true) (hp : s.hphase = .free)
    (htx : s.tx ≠ .idle) : exec .wait s = .next (repeatWait (giveAnswer s)) := by
  rw [exec_wait_runs hc hi hp, if_neg htx]

/-- Settles O38: an idle block answers the one READY with 1; else the answer is 0 and the HOST fetches WAIT again. -/
theorem waitRepeatsReady : Obligations.WaitRepeatsReady := by
  intro s hc hi hp
  constructor
  · intro htx
    have hend := exec_wait_ends hc hi hp htx
    refine ⟨?_, hend.symm⟩
    rw [hend, exec_ready_runs hc hi hp, giveAnswer_eq (decide_eq_true htx)]
  · intro htx
    have hrun := exec_wait_repeats hc hi hp htx
    rw [giveAnswer_eq (decide_eq_false htx)] at hrun
    exact ⟨_, hrun, List.getLast?_concat, rfl, fetch_host_wait hp rfl⟩

/-! ### LEDW (R132) -/

theorem exec_ledw_borrowed {s : State} {a : LedIndex} {r g b : Byte} (hc : s.cfg.wf = true) (hp : s.hphase = .free)
    (hb : inBorrowed s a = true) : exec (.ledw a r g b) s = .fault (.borrowViolation (.ledw a r g b)) := by
  show execLedw a r g b s = _
  rw [execLedw, guardConfig_ok hc, if_pos hp, if_pos hb]

/-- The channels of an element are its three bytes, red first (R51). -/
theorem memRead_of_ledRead {m : Memory} {a : Nat} {r g b : Byte} (h : ledRead m a = r ++ g ++ b) :
    memRead m (3 * a) = r ∧ memRead m (3 * a + 1) = g ∧ memRead m (3 * a + 2) = b := by
  have hblue := congrArg (BitVec.extractLsb' 0 8) h
  have hhigh := congrArg (BitVec.extractLsb' 8 16) h
  simp only [ledRead, BitVec.extractLsb'_append_eq_left, BitVec.extractLsb'_append_eq_right] at hblue hhigh
  have hred := congrArg (BitVec.extractLsb' 8 8) hhigh
  have hgreen := congrArg (BitVec.extractLsb' 0 8) hhigh
  simp only [BitVec.extractLsb'_append_eq_left, BitVec.extractLsb'_append_eq_right] at hred hgreen
  exact ⟨hred, hgreen, hblue⟩

/-- Settles O39: outside the borrowed range the element is stored and read back byte by byte, inside it the store faults. -/
theorem ledwStores : Obligations.LedwStores := by
  intro s a r g b hc hp hm
  constructor
  · intro hfree
    have hb : inBorrowed s a = false := by rwa [← Bool.not_eq_true, inBorrowed_iff]
    have hread := ledRead_ledWrite_same s.ledmem a.toNat (r ++ g ++ b) hm a.isLt
    obtain ⟨hr, hg, hblue⟩ := memRead_of_ledRead hread
    exact ⟨_, exec_ledw_runs hc hp hb, hread, hr, hg, hblue, fun x => memRead_ledWrite_other _ _ x _, rfl⟩
  · intro htx hlo hhi
    exact exec_ledw_borrowed hc hp ((inBorrowed_iff ..).mpr ⟨htx, hlo, hhi⟩)

end Sys2Proof.Machine
end

section
/-! PROOFS. The two handlers (42_event_handler.md R141 to R144): one rule per outcome, the counterpart of the `…_cases`
lemmas. -/

namespace Sys2Proof.Machine

/-! ### The parts of a handler -/

theorem andThen_eq_self {o : Result} {f : State → Result} (h : ∀ t, o = .next t → f t = .next t) : andThen o f = o := by
  cases o with
  | next t => exact h t rfl
  | fault r => rfl
  | refused r => rfl

theorem encodeHalf_keeps_tx {hf : Half} {s t : State} (he : encodeHalf hf s = .next t) : t.tx = s.tx := by
  rw [encodeHalf_frame he]

theorem encodeHalf_keeps_engine {hf : Half} {s t : State} (he : encodeHalf hf s = .next t) : t.engine = s.engine := by
  rw [encodeHalf_frame he]

theorem finishDone_rests {s : State} (hs : s.tx ≠ .done) : finishDone s = s := if_neg hs

/-- Sending with units left, a handler refills its half; the rest of it leaves sending alone (R141, R142). -/
theorem refillOrDone_refills {hf : Half} {s : State} {f : State → Result} (hs : s.tx = .sending)
    (hp : s.p.toNat < totalUnits s) (hrest : ∀ t, t.tx = .sending → f t = .next t) :
    andThen (refillOrDone hf s) f = encodeHalf hf s := by
  rw [refillOrDone, if_pos hs, if_pos hp]
  exact andThen_eq_self fun t ht => hrest t ((encodeHalf_keeps_tx ht).trans hs)

/-- A handler that finds STATE sending with no unit left, or done, ends the transmission (R141, R145). -/
theorem refillOrDone_ends {hf : Half} {s : State} (hs : (s.tx = .sending ∧ totalUnits s ≤ s.p.toNat) ∨ s.tx = .done) :
    ∃ u, refillOrDone hf s = .next u ∧ finishDone u = setTx .idle (stopEngine s) := by
  rcases hs with ⟨hs, hp⟩ | hs
  · exact ⟨setTx .done s, by rw [refillOrDone, if_pos hs, if_neg (Nat.not_lt.mpr hp)], if_pos rfl⟩
  · exact ⟨s, if_neg (by simp [hs]), if_pos hs⟩

/-- In idle and clearing the branches for sending and done do nothing (R144, R146). -/
theorem refillOrDone_rests {hf : Half} {s : State} (hs : s.tx = .idle ∨ s.tx = .clearing) :
    refillOrDone hf s = .next s ∧ finishDone s = s := by
  rcases hs with hs | hs <;> exact ⟨if_neg (by simp [hs]), finishDone_rests (by simp [hs])⟩

theorem countClear_rests {s : State} (hs : s.tx ≠ .clearing) : countClear s = s := if_neg hs

theorem countClear_counts {s : State} (hs : s.tx = .clearing) (hl : s.clrCnt.toNat + 1 < s.cfg.clearLimit) :
    countClear s = countCycle s := by
  rw [countClear, if_pos hs, if_neg (Nat.not_le.mpr hl)]

theorem countClear_ends {s : State} (hs : s.tx = .clearing) (hl : s.cfg.clearLimit ≤ s.clrCnt.toNat + 1) :
    countClear s = setTx .idle (stopEngine (countCycle s)) := by
  rw [countClear, if_pos hs, if_pos hl]

/-! ### EV_HALF -/

section
variable {s : State} (hc : s.cfg.wf = true) (hh : s.halfPend = true)
include hc hh

theorem exec_evHalf_refills (hs : s.tx = .sending) (hp : s.p.toNat < totalUnits s) :
    exec .evHalf s = encodeHalf .low (ackHalf s) := by
  rw [exec_evHalf_runs hc hh, refillOrDone_refills (s := ackHalf s) hs hp fun t ht => ?_]
  rw [finishDone_rests (by simp [ht])]

theorem exec_evHalf_ends (hs : (s.tx = .sending ∧ totalUnits s ≤ s.p.toNat) ∨ s.tx = .done) :
    exec .evHalf s = .next (setTx .idle (stopEngine (ackHalf s))) := by
  obtain ⟨u, hu, hend⟩ := refillOrDone_ends (hf := .low) (s := ackHalf s) hs
  rw [exec_evHalf_runs hc hh, hu, andThen_next, hend]

theorem exec_evHalf_rests (hs : s.tx = .idle ∨ s.tx = .clearing) : exec .evHalf s = .next (ackHalf s) := by
  obtain ⟨hrefill, hfinish⟩ := refillOrDone_rests (hf := .low) (s := ackHalf s) hs
  rw [exec_evHalf_runs hc hh, hrefill, andThen_next, hfinish]

end

/-! ### EV_WRAP -/

section
variable {s : State} (hc : s.cfg.wf = true) (hw : s.wrapPend = true)
include hc hw

theorem exec_evWrap_refills (hs : s.tx = .sending) (hp : s.p.toNat < totalUnits s) :
    exec .evWrap s = encodeHalf .high (ackWrap s) := by
  rw [exec_evWrap_runs hc hw, refillOrDone_refills (s := ackWrap s) hs hp fun t ht => ?_]
  rw [finishDone_rests (by simp [ht]), countClear_rests (by simp [ht])]

theorem exec_evWrap_ends (hs : (s.tx = .sending ∧ totalUnits s ≤ s.p.toNat) ∨ s.tx = .done) :
    exec .evWrap s = .next (setTx .idle (stopEngine (ackWrap s))) := by
  obtain ⟨u, hu, hend⟩ := refillOrDone_ends (hf := .high) (s := ackWrap s) hs
  rw [exec_evWrap_runs hc hw, hu, andThen_next, hend, countClear_rests (by simp)]

/-- Outside sending and done EV_WRAP acknowledges and looks at the clear cycle alone. -/
theorem exec_evWrap_not_sending (hs : s.tx = .idle ∨ s.tx = .clearing) :
    exec .evWrap s = .next (countClear (ackWrap s)) := by
  obtain ⟨hrefill, hfinish⟩ := refillOrDone_rests (hf := .high) (s := ackWrap s) hs
  rw [exec_evWrap_runs hc hw, hrefill, andThen_next, hfinish]

theorem exec_evWrap_rests (hs : s.tx = .idle) : exec .evWrap s = .next (ackWrap s) := by
  rw [exec_evWrap_not_sending hc hw (.inl hs), countClear_rests (by simp [hs])]

theorem exec_evWrap_counts (hs : s.tx = .clearing) (hl : s.clrCnt.toNat + 1 < s.cfg.clearLimit) :
    exec .evWrap s = .next (countCycle (ackWrap s)) := by
  rw [exec_evWrap_not_sending hc hw (.inr hs), countClear_counts (s := ackWrap s) hs hl]

theorem exec_evWrap_ends_clear (hs : s.tx = .clearing) (hl : s.cfg.clearLimit ≤ s.clrCnt.toNat + 1) :
    exec .evWrap s = .next (setTx .idle (stopEngine (countCycle (ackWrap s)))) := by
  rw [exec_evWrap_not_sending hc hw (.inr hs), countClear_ends (s := ackWrap s) hs hl]

end

/-! ### The effects -/

/-- A refill answers a next state and leaves STATE sending. -/
theorem exec_encodeHalf_sending {s : State} (hf : Half) (hc : s.cfg.wf = true) (hs : s.tx = .sending)
    (hr : s.ledBase.toNat + s.ledCount.toNat ≤ ledmemSize) :
    ∃ t, encodeHalf hf s = .next t ∧ exec (.encodeHalf hf) s = .next t ∧ t.tx = .sending := by
  obtain ⟨t, ht⟩ : ∃ t, encodeHalf hf s = .next t := encodeSlots_runs hr
  exact ⟨t, ht, (exec_encodeHalf_runs hc).trans ht, (encodeHalf_keeps_tx ht).trans hs⟩

/-- Settles O21, one clause per outcome of EV_HALF. -/
theorem evHalfEffect : Obligations.EvHalfEffect := by
  intro s hc hh
  refine ⟨fun hs hp ⟨hr, _⟩ => ?_, exec_evHalf_ends hc hh, exec_evHalf_rests hc hh⟩
  obtain ⟨t, ht, hrun, htx⟩ := exec_encodeHalf_sending (s := ackHalf s) .low hc hs hr
  exact ⟨t, (exec_evHalf_refills hc hh hs hp).trans ht, hrun, htx⟩

/-- Settles O22, one clause per outcome of EV_WRAP. -/
theorem evWrapEffect : Obligations.EvWrapEffect := by
  intro s hc hw
  refine ⟨fun hs hp ⟨hr, _⟩ => ?_, exec_evWrap_ends hc hw, exec_evWrap_rests hc hw, exec_evWrap_counts hc hw,
    exec_evWrap_ends_clear hc hw⟩
  obtain ⟨t, ht, hrun, htx⟩ := exec_encodeHalf_sending (s := ackWrap s) .high hc hs hr
  exact ⟨t, (exec_evWrap_refills hc hw hs hp).trans ht, hrun, htx⟩

end Sys2Proof.Machine
end

section
/-! PROOFS. The transition table (42_event_handler.md R145, R150): what an operation can do to STATE and ENGINE, once
for all operations. -/

namespace Sys2Proof.Machine

/-- The ways an operation from `s` to `t` treats STATE and ENGINE: the sub-steps of the engine aside, it keeps both or
changes both, each change with the guard it passed (R150). -/
inductive ControlChange (s t : State) : Instr → Prop where
  | kept {i : Instr} (htx : t.tx = s.tx) (he : i = .engStart ∨ i = .engStop ∨ t.engine = s.engine) : ControlChange s t i
  | sendAccepted {base : LedIndex} {count : Count} (hr : idleReady s = true) (htx : t.tx = .sending)
      (he : t.engine = .busy) : ControlChange s t (.send base count)
  | clearAccepted {base : LedIndex} {count : Count} (hr : idleReady s = true) (htx : t.tx = .clearing)
      (he : t.engine = .busy) : ControlChange s t (.clear base count)
  | initialised (hi : s.inited = false) (htx : t.tx = .clearing) (he : t.engine = .busy) : ControlChange s t .init
  | sendEnded {i : Instr} (hi : i = .evHalf ∨ i = .evWrap)
      (hs : s.tx = .sending ∧ totalUnits s ≤ s.p.toNat ∨ s.tx = .done) (htx : t.tx = .idle) (he : t.engine = .ready) :
      ControlChange s t i
  | clearEnded (hs : s.tx = .clearing) (hl : s.cfg.clearLimit ≤ s.clrCnt.toNat + 1) (htx : t.tx = .idle)
      (he : t.engine = .ready) : ControlChange s t .evWrap

theorem HostEffect.controlChange {i : Instr} {s t : State} (he : HostEffect s i t) (hi : i ≠ .init) :
    ControlChange s t i := by
  cases he with
  | initialised => exact absurd rfl hi
  | sendAccepted _ _ _ hr ha => rw [acceptSend_frame ha]; exact .sendAccepted hr rfl rfl
  | clearAccepted _ hr => exact .clearAccepted hr rfl rfl
  | _ => exact .kept rfl (.inr (.inr rfl))

theorem exec_controlChange {i : Instr} {s t : State} (h : exec i s = .next t) : ControlChange s t i := by
  cases i with
  | init => obtain ⟨-, hi, -, rfl⟩ := execInit_cases h; exact .initialised hi rfl rfl
  | ready | send | clear => exact (exec_hostEffect (.inl rfl) h).controlChange nofun
  | wait | ledw => exact (exec_hostEffect (.inr rfl) h).controlChange nofun
  | evHalf =>
    obtain ⟨-, -, ⟨-, -, he⟩ | ⟨hs, rfl⟩ | ⟨-, rfl⟩⟩ := execEvHalf_cases h
    · exact .kept (encodeHalf_keeps_tx (s := ackHalf s) he) (.inr (.inr (encodeHalf_keeps_engine (s := ackHalf s) he)))
    · exact .sendEnded (.inl rfl) hs rfl rfl
    · exact .kept rfl (.inr (.inr rfl))
  | evWrap =>
    obtain ⟨-, -, ⟨-, -, he⟩ | ⟨hs, rfl⟩ | ⟨-, rfl⟩ | ⟨-, -, rfl⟩ | ⟨hs, hl, rfl⟩⟩ := execEvWrap_cases h
    · exact .kept (encodeHalf_keeps_tx (s := ackWrap s) he) (.inr (.inr (encodeHalf_keeps_engine (s := ackWrap s) he)))
    · exact .sendEnded (.inr rfl) hs rfl rfl
    · exact .kept rfl (.inr (.inr rfl))
    · exact .kept rfl (.inr (.inr rfl))
    · exact .clearEnded hs hl rfl rfl
  | encodeUnit hf j =>
    obtain ⟨-, -, h⟩ := execEncodeUnit_cases h
    rcases encodeUnit_cases h with ⟨-, rfl⟩ | ⟨-, rfl⟩ <;> exact .kept rfl (.inr (.inr rfl))
  | encodeHalf hf =>
    obtain ⟨-, he⟩ := execEncodeHalf_cases h
    exact .kept (encodeHalf_keeps_tx he) (.inr (.inr (encodeHalf_keeps_engine he)))
  | engStart => obtain ⟨-, rfl⟩ := execEngStart_cases h; exact .kept rfl (.inl rfl)
  | engStop => obtain ⟨-, rfl⟩ := execEngStop_cases h; exact .kept rfl (.inr (.inl rfl))
  | engXfer => obtain ⟨-, -, -, v, -, rfl⟩ := execEngXfer_cases h; exact .kept rfl (.inr (.inr rfl))
  | genTick =>
    obtain ⟨-, -, u, hu, rfl⟩ := execGenTick_cases h
    rcases startPeriod_cases hu with ⟨-, rfl⟩ | ⟨-, -, rfl⟩ | ⟨-, -, -, v, -, rfl⟩ <;> exact .kept rfl (.inr (.inr rfl))

theorem exec_tx_ne_done {i : Instr} {s t : State} (hs : s.tx ≠ .done) (h : exec i s = .next t) : t.tx ≠ .done := by
  cases exec_controlChange h with
  | kept htx => rwa [htx]
  | sendAccepted _ htx | clearAccepted _ htx | initialised _ htx | sendEnded _ _ htx | clearEnded _ _ htx =>
    rw [htx]; exact nofun

/-- Settles O49: the turn leaves STATE alone, and no operation answers a state in done. -/
theorem doneNeverVisible : Obligations.DoneNeverVisible := by
  intro s t hs h
  obtain ⟨u, l, ts, n, rfl, rfl | ⟨i, -, he⟩⟩ := step_runs h
  · exact hs
  · exact exec_tx_ne_done (s := { s with script := l, turns := ts, turnCount := n }) hs he

/-! ### The rows of the table -/

theorem legalTransition_send {base : LedIndex} {count : Count} {s t : State} (hs : s.tx = .idle)
    (ht : t.tx = .sending) :
    legalTransition (.send base count) s t = (decide (s.engine = .ready) && decide (t.engine = .busy)) := by
  unfold legalTransition; rw [hs, ht]

theorem legalTransition_clear {base : LedIndex} {count : Count} {s t : State} (hs : s.tx = .idle)
    (ht : t.tx = .clearing) :
    legalTransition (.clear base count) s t = (decide (s.engine = .ready) && decide (t.engine = .busy)) := by
  unfold legalTransition; rw [hs, ht]

theorem legalTransition_init {s t : State} (hs : s.tx = .idle) (ht : t.tx = .clearing) :
    legalTransition .init s t = decide (t.engine = .busy) := by
  unfold legalTransition; rw [hs, ht]

theorem legalTransition_sendEnd {i : Instr} {s t : State} (hi : i = .evHalf ∨ i = .evWrap) (hs : s.tx = .sending)
    (ht : t.tx = .idle) :
    legalTransition i s t = (decide (totalUnits s ≤ s.p.toNat) && decide (t.engine = .ready)) := by
  unfold legalTransition; rw [hs, ht]
  rcases hi with rfl | rfl <;> rfl

theorem legalTransition_clearEnd {s t : State} (hs : s.tx = .clearing) (ht : t.tx = .idle) :
    legalTransition .evWrap s t =
      (decide (s.cfg.clearLimit ≤ s.clrCnt.toNat + 1) && decide (t.engine = .ready)) := by
  unfold legalTransition; rw [hs, ht]

/-- Settles O50: each change of STATE and ENGINE is a row of the table, once done is ruled out. -/
theorem transitionTable : Obligations.TransitionTable := by
  rintro i s t ⟨hdone, -, -, hinit⟩ h
  cases exec_controlChange h with
  | kept htx he =>
    refine ⟨legalTransition_of_same htx, fun hstart hstop hne => ?_⟩
    rcases he with he | he | he
    · exact absurd he hstart
    · exact absurd he hstop
    · exact absurd he hne
  | sendAccepted hr htx he =>
    obtain ⟨hidle, hready⟩ := (idleReady_iff s).mp hr
    rw [legalTransition_send hidle htx]
    simp [hidle, hready, htx, he]
  | clearAccepted hr htx he =>
    obtain ⟨hidle, hready⟩ := (idleReady_iff s).mp hr
    rw [legalTransition_clear hidle htx]
    simp [hidle, hready, htx, he]
  | initialised hi htx he =>
    obtain ⟨hidle, -⟩ := hinit hi
    rw [legalTransition_init hidle htx]
    simp [hidle, htx, he]
  | sendEnded hi hs htx he =>
    obtain ⟨hs, hp⟩ := hs.resolve_right hdone
    rw [legalTransition_sendEnd hi hs htx]
    simp [hs, hp, htx, he]
  | clearEnded hs hl htx he =>
    rw [legalTransition_clearEnd hs htx]
    simp [hs, hl, htx, he]

end Sys2Proof.Machine
end

section
/-! PROOFS. The eager schedule (R19, D27): transfers up to the end of a half (43_block_transfer_engine.md R163, R164), and one
half streamed with its event served at once, one rule per outcome of the handler. -/

namespace Sys2Proof.Machine

theorem andThen_assoc (o : Result) (f g : State → Result) :
    andThen (andThen o f) g = andThen o fun s => andThen (f s) g := by
  cases o <;> rfl

theorem andThen_next_right (o : Result) : andThen o .next = o := andThen_eq_self fun _ _ => rfl

/-! ### Transfers in a row -/

theorem transfers_succ_last (m : Nat) (s : State) : transfers (m + 1) s = andThen (transfers m s) (exec .engXfer) := by
  induction m generalizing s with
  | zero => exact andThen_next_right _
  | succ m ih =>
    rw [transfers, transfers, andThen_assoc]
    congr 1
    funext t
    exact ih t

/-- The entry at which the half being read ends (R164). -/
def halfEnd (s : State) : Nat := if s.rdidx < s.cfg.half then s.cfg.half else s.cfg.n

/-- The state after m transfers that do not pass the end of the half, with no event pending before them (R163, R164). -/
def streamed (m : Nat) (duty : Val) (s : State) : State :=
  { s with
    duty := duty
    out := s.out ++ (s.buf.drop s.rdidx).take m
    rdidx := (s.rdidx + m) % s.cfg.n
    halfPend := decide (0 < m ∧ s.rdidx + m = s.cfg.half)
    wrapPend := decide (0 < m ∧ s.rdidx + m = s.cfg.n) }

theorem streamed_zero {s : State} (hr : s.rdidx < s.cfg.n) (hh : s.halfPend = false) (hw : s.wrapPend = false) :
    streamed 0 s.duty s = s := by
  cases s
  simp_all [streamed, Nat.mod_eq_of_lt]

@[simp] theorem streamed_cfg (m : Nat) (duty : Val) (s : State) : (streamed m duty s).cfg = s.cfg := rfl

theorem halfEnd_le {s : State} (hc : s.cfg.wf = true) : halfEnd s ≤ s.cfg.n := by
  have hdouble := config_half_double s.cfg hc
  rw [halfEnd]; split <;> omega

section
variable {s : State} {m : Nat} (hc : s.cfg.wf = true) (hend : s.rdidx + m < halfEnd s)
include hc hend

/-- Before the end of the half the next entry to read is in the buffer, and no event has been raised. -/
theorem streamed_before_end (duty : Val) :
    (streamed m duty s).rdidx = s.rdidx + m ∧ (streamed m duty s).halfPend = false ∧
      (streamed m duty s).wrapPend = false := by
  have hle := halfEnd_le hc
  have hhalf : ¬(0 < m ∧ s.rdidx + m = s.cfg.half) := by rw [halfEnd] at hend; split at hend <;> omega
  exact ⟨Nat.mod_eq_of_lt (by omega), decide_eq_false hhalf, decide_eq_false (by omega)⟩

/-- The next transfer raises the event of the half that its entry ends (R164). -/
theorem raises_streamed (duty : Val) :
    raisesHalf (streamed m duty s) = decide (s.rdidx + (m + 1) = s.cfg.half) ∧
      raisesWrap (streamed m duty s) = decide (s.rdidx + (m + 1) = s.cfg.n) := by
  obtain ⟨hidx, -, -⟩ := streamed_before_end hc hend duty
  have hle := halfEnd_le hc
  have hdouble := config_half_double s.cfg hc
  have hpos := config_n_pos hc
  have hnext := nextRdidx_eq (s := streamed m duty s) (by rw [hidx, streamed_cfg]; omega)
  rw [hidx, streamed_cfg] at hnext
  rw [raisesHalf, raisesWrap, hnext, streamed_cfg]
  constructor <;> refine decide_eq_decide.mpr ?_ <;> split <;> omega

/-- One more transfer inside the half emits the next entry, and raises the event when it is the last (R163, R164). -/
theorem exec_engXfer_streamed {duty v : Val} (hb : s.engine = .busy) (hg : s.genRun = true)
    (hv : s.buf[s.rdidx + m]? = some v) : exec .engXfer (streamed m duty s) = .next (streamed (m + 1) v s) := by
  obtain ⟨hidx, hh, hw⟩ := streamed_before_end hc hend duty
  obtain ⟨hhalf, hwrap⟩ := raises_streamed hc hend duty
  have hruns : engineRuns (streamed m duty s) = true := (engineRuns_iff _).mpr ⟨hb, hg⟩
  have hover : overruns (streamed m duty s) = false := (overruns_eq_false _).mpr fun _ => ⟨hh, hw⟩
  have hentry : (streamed m duty s).buf[(streamed m duty s).rdidx]? = some v := by rw [hidx]; exact hv
  have hout : s.out ++ (s.buf.drop s.rdidx).take m ++ [v] = s.out ++ (s.buf.drop s.rdidx).take (m + 1) := by
    rw [List.take_add_one, List.getElem?_drop, hv, Option.toList_some, List.append_assoc]
  have hmod : ((s.rdidx + m) % s.cfg.n + 1) % s.cfg.n = (s.rdidx + (m + 1)) % s.cfg.n := Nat.mod_add_mod ..
  rw [exec_engXfer_runs (s := streamed m duty s) hc hruns, transferEntry_runs hover hentry, moveEntry, hh, hw, hhalf,
    hwrap]
  simp [streamed, emit, nextRdidx, ← hout, hmod]

end

/-- Transfers up to the end of the half being read emit its entries in ascending order and raise the event with the last
(R163, R164). -/
theorem transfers_eq_streamed {s : State} (hc : s.cfg.wf = true) (hlen : s.buf.length = s.cfg.n)
    (hr : s.rdidx < s.cfg.n) (hb : s.engine = .busy) (hg : s.genRun = true) (hh : s.halfPend = false)
    (hw : s.wrapPend = false) (m : Nat) (hm : s.rdidx + m ≤ halfEnd s) :
    ∃ duty, transfers m s = .next (streamed m duty s) := by
  have hle := halfEnd_le hc
  induction m with
  | zero => exact ⟨s.duty, by rw [streamed_zero hr hh hw]; rfl⟩
  | succ m ih =>
    obtain ⟨duty, ht⟩ := ih (by omega)
    have hv : s.buf[s.rdidx + m]? = some s.buf[s.rdidx + m] := List.getElem?_eq_getElem (by omega)
    exact ⟨_, by rw [transfers_succ_last, ht, andThen_next, exec_engXfer_streamed hc (by omega) hb hg hv]⟩

/-! ### One half and its event -/

/-- The half the engine reads after a half (R160). -/
def otherHalf : Half → Half
  | .low => .high
  | .high => .low

theorem otherHalf_ne (h : Half) : otherHalf h ≠ h := by cases h <;> nofun

@[simp] theorem halfBase_low (c : Config) : halfBase c .low = 0 := Nat.zero_mul _

@[simp] theorem halfBase_high (c : Config) : halfBase c .high = c.half := Nat.one_mul _

/-- The H entries of a half (R55). -/
def halfEntries (c : Config) (h : Half) (buf : List Val) : List Val := (buf.drop (halfBase c h)).take c.half

theorem halfEntries_getElem? {c : Config} (h : Half) (buf : List Val) {i : Nat} (hi : i < c.half) :
    (halfEntries c h buf)[i]? = buf[halfBase c h + i]? := by
  rw [halfEntries, List.getElem?_take_of_lt hi, List.getElem?_drop]

theorem halfEntries_length {c : Config} (hc : c.wf = true) (h : Half) {buf : List Val} (hlen : buf.length = c.n) :
    (halfEntries c h buf).length = c.half := by
  have hfit := half_in_buffer hc h
  rw [halfEntries, List.length_take, List.length_drop]; omega

/-- A half read in full by the engine is the same in two buffers that agree on its entries. -/
theorem halfEntries_congr {c : Config} {h : Half} {buf buf' : List Val}
    (heq : ∀ i, i < c.half → buf'[halfBase c h + i]? = buf[halfBase c h + i]?) :
    halfEntries c h buf' = halfEntries c h buf := by
  apply List.ext_getElem?
  intro i
  rcases Nat.lt_or_ge i c.half with hi | hi
  · rw [halfEntries_getElem? h _ hi, halfEntries_getElem? h _ hi, heq i hi]
  · rw [halfEntries, halfEntries, List.getElem?_take_eq_none hi, List.getElem?_take_eq_none hi]

/-- The engine runs, stands at the start of a half, and no event is pending. -/
structure AtHalf (h : Half) (s : State) : Prop where
  config : s.cfg.wf = true
  length : s.buf.length = s.cfg.n
  busy : s.engine = .busy
  running : s.genRun = true
  rdidx : s.rdidx = halfBase s.cfg h
  noHalf : s.halfPend = false
  noWrap : s.wrapPend = false

/-- The state after a half has been streamed and its event acknowledged. -/
def consumeHalf (duty : Val) (h : Half) (s : State) : State :=
  { s with
    duty := duty, out := s.out ++ halfEntries s.cfg h s.buf, rdidx := halfBase s.cfg (otherHalf h) }

theorem AtHalf.consumeHalf {h : Half} {s : State} (hs : AtHalf h s) (duty : Val) :
    AtHalf (otherHalf h) (consumeHalf duty h s) :=
  ⟨hs.config, hs.length, hs.busy, hs.running, rfl, hs.noHalf, hs.noWrap⟩

/-- The event that the end of a half raises (R164). -/
def raiseEvent (h : Half) (s : State) : State :=
  match h with
  | .low => { s with halfPend := true }
  | .high => { s with wrapPend := true }

/-- H transfers from the start of a half leave RDIDX at the start of the other, with the half's event raised. -/
theorem streamed_half {h : Half} {s : State} (hs : AtHalf h s) (duty : Val) :
    streamed s.cfg.half duty s = raiseEvent h (consumeHalf duty h s) := by
  have hdouble := config_half_double s.cfg hs.config
  have hpos := config_n_pos hs.config
  have hne : s.cfg.half ≠ s.cfg.n := by omega
  have hlt : s.cfg.half % s.cfg.n = s.cfg.half := Nat.mod_eq_of_lt (by omega)
  have hwrap : s.cfg.half + s.cfg.half = s.cfg.n := by omega
  have hhalf : 0 < s.cfg.half := by omega
  obtain ⟨-, -, -, -, hr, hh, hw⟩ := hs
  cases h with
  | low =>
    rw [halfBase_low] at hr
    simp [streamed, raiseEvent, consumeHalf, halfEntries, otherHalf, hr, hlt, hhalf, hne, hw]
  | high =>
    rw [halfBase_high] at hr
    simp [streamed, raiseEvent, consumeHalf, halfEntries, otherHalf, hr, hwrap, hhalf, hne.symm, hh]

theorem transfers_half {h : Half} {s : State} (hs : AtHalf h s) :
    ∃ duty, transfers s.cfg.half s = .next (raiseEvent h (consumeHalf duty h s)) := by
  have hfit := half_in_buffer hs.config h
  have hpos := config_n_pos hs.config
  have hdouble := config_half_double s.cfg hs.config
  have hend : s.rdidx + s.cfg.half ≤ halfEnd s := by
    rw [halfEnd, hs.rdidx]
    rcases halfBase_eq s.cfg h with ⟨hb, -⟩ | ⟨hb, -⟩ <;> rw [hb] <;> split <;> omega
  obtain ⟨duty, ht⟩ := transfers_eq_streamed hs.config hs.length (by rw [hs.rdidx]; omega) hs.busy hs.running hs.noHalf
    hs.noWrap s.cfg.half hend
  exact ⟨duty, by rw [ht, streamed_half hs]⟩

/-- One half of the eager schedule (R19, D27). -/
def eagerHalf (s : State) : Result := andThen (transfers s.cfg.half s) serveEvent

theorem eagerHalf_eq {h : Half} {s : State} (hs : AtHalf h s) :
    ∃ duty, eagerHalf s = serveEvent (raiseEvent h (consumeHalf duty h s)) := by
  obtain ⟨duty, ht⟩ := transfers_half hs
  exact ⟨duty, by rw [eagerHalf, ht, andThen_next]⟩

theorem eagerHalves_succ (e : Nat) (s : State) : eagerHalves (e + 1) s = andThen (eagerHalf s) (eagerHalves e) := by
  rw [eagerHalves, eagerHalf, andThen_assoc]

theorem eagerHalves_add (e e' : Nat) (s : State) :
    eagerHalves (e + e') s = andThen (eagerHalves e s) (eagerHalves e') := by
  induction e generalizing s with
  | zero => rw [Nat.zero_add, eagerHalves, andThen_next]
  | succ e ih =>
    rw [Nat.succ_add, eagerHalves_succ, eagerHalves_succ, andThen_assoc]
    exact congrArg (andThen (eagerHalf s)) (funext ih)

theorem eagerHalves_two {s t : State} (h : eagerHalf s = .next t) : eagerHalves 2 s = eagerHalf t := by
  rw [eagerHalves_succ, h, andThen_next, eagerHalves_succ]
  exact andThen_next_right _

theorem eagerHalves_succ_last (e : Nat) (s : State) : eagerHalves (e + 1) s = andThen (eagerHalves e s) eagerHalf := by
  rw [eagerHalves_add]
  refine congrArg (andThen (eagerHalves e s)) (funext fun t => ?_)
  rw [eagerHalves_succ]
  exact andThen_next_right _

/-! ### The event of a half served -/

section
variable {s : State} (hc : s.cfg.wf = true) (hh : s.halfPend = false) (hw : s.wrapPend = false)

include hh in
theorem serveEvent_low : serveEvent (raiseEvent .low s) = exec .evHalf (raiseEvent .low s) ∧
    ackHalf (raiseEvent .low s) = s := by
  refine ⟨if_pos rfl, ?_⟩
  cases s
  simp_all [raiseEvent, ackHalf]

include hh hw in
theorem serveEvent_high : serveEvent (raiseEvent .high s) = exec .evWrap (raiseEvent .high s) ∧
    ackWrap (raiseEvent .high s) = s := by
  refine ⟨?_, ?_⟩
  · rw [serveEvent, if_neg (by simp [raiseEvent, hh])]
    exact if_pos rfl
  · cases s
    simp_all [raiseEvent, ackWrap]

include hc hh hw

/-- While sending with units left, the half just streamed is refilled (R141, R142). -/
theorem serveEvent_refills (h : Half) (hs : s.tx = .sending) (hp : s.p.toNat < totalUnits s) :
    serveEvent (raiseEvent h s) = encodeHalf h s := by
  cases h with
  | low =>
    obtain ⟨hserve, hack⟩ := serveEvent_low hh
    rw [hserve, exec_evHalf_refills (s := raiseEvent .low s) hc rfl hs hp, hack]
  | high =>
    obtain ⟨hserve, hack⟩ := serveEvent_high hh hw
    rw [hserve, exec_evWrap_refills (s := raiseEvent .high s) hc rfl hs hp, hack]

/-- While sending with none left, the event ends the transmission (R141, R142, R145). -/
theorem serveEvent_ends (h : Half) (hs : s.tx = .sending) (hp : totalUnits s ≤ s.p.toNat) :
    serveEvent (raiseEvent h s) = .next (setTx .idle (stopEngine s)) := by
  cases h with
  | low =>
    obtain ⟨hserve, hack⟩ := serveEvent_low hh
    rw [hserve, exec_evHalf_ends (s := raiseEvent .low s) hc rfl (.inl ⟨hs, hp⟩), hack]
  | high =>
    obtain ⟨hserve, hack⟩ := serveEvent_high hh hw
    rw [hserve, exec_evWrap_ends (s := raiseEvent .high s) hc rfl (.inl ⟨hs, hp⟩), hack]

omit hw in
/-- While clearing, the half-consumed event is only acknowledged (R146). -/
theorem serveEvent_low_clearing (hs : s.tx = .clearing) : serveEvent (raiseEvent .low s) = .next s := by
  obtain ⟨hserve, hack⟩ := serveEvent_low hh
  rw [hserve, exec_evHalf_rests (s := raiseEvent .low s) hc rfl (.inr hs), hack]

theorem serveEvent_high_counts (hs : s.tx = .clearing) (hl : s.clrCnt.toNat + 1 < s.cfg.clearLimit) :
    serveEvent (raiseEvent .high s) = .next (countCycle s) := by
  obtain ⟨hserve, hack⟩ := serveEvent_high hh hw
  rw [hserve, exec_evWrap_counts (s := raiseEvent .high s) hc rfl hs hl, hack]

theorem serveEvent_high_ends_clear (hs : s.tx = .clearing) (hl : s.cfg.clearLimit ≤ s.clrCnt.toNat + 1) :
    serveEvent (raiseEvent .high s) = .next (setTx .idle (stopEngine (countCycle s))) := by
  obtain ⟨hserve, hack⟩ := serveEvent_high hh hw
  rw [hserve, exec_evWrap_ends_clear (s := raiseEvent .high s) hc rfl hs hl, hack]

end

/-! ### One half of the eager schedule, by outcome -/

section
variable {h : Half} {s : State} (hs : AtHalf h s)
include hs

theorem eagerHalf_refills (htx : s.tx = .sending) (hp : s.p.toNat < totalUnits s) :
    ∃ duty, eagerHalf s = encodeHalf h (consumeHalf duty h s) := by
  obtain ⟨duty, hrun⟩ := eagerHalf_eq hs
  exact ⟨duty, hrun.trans (serveEvent_refills (s := consumeHalf duty h s) hs.config hs.noHalf hs.noWrap h htx hp)⟩

theorem eagerHalf_ends (htx : s.tx = .sending) (hp : totalUnits s ≤ s.p.toNat) :
    ∃ duty, eagerHalf s = .next (setTx .idle (stopEngine (consumeHalf duty h s))) := by
  obtain ⟨duty, hrun⟩ := eagerHalf_eq hs
  exact ⟨duty, hrun.trans (serveEvent_ends (s := consumeHalf duty h s) hs.config hs.noHalf hs.noWrap h htx hp)⟩

end

theorem eagerHalf_low_clearing {s : State} (hs : AtHalf .low s) (htx : s.tx = .clearing) :
    ∃ duty, eagerHalf s = .next (consumeHalf duty .low s) := by
  obtain ⟨duty, hrun⟩ := eagerHalf_eq hs
  exact ⟨duty, hrun.trans (serveEvent_low_clearing (s := consumeHalf duty .low s) hs.config hs.noHalf htx)⟩

section
variable {s : State} (hs : AtHalf .high s) (htx : s.tx = .clearing)
include hs htx

theorem eagerHalf_high_counts (hl : s.clrCnt.toNat + 1 < s.cfg.clearLimit) :
    ∃ duty, eagerHalf s = .next (countCycle (consumeHalf duty .high s)) := by
  obtain ⟨duty, hrun⟩ := eagerHalf_eq hs
  exact ⟨duty, hrun.trans
    (serveEvent_high_counts (s := consumeHalf duty .high s) hs.config hs.noHalf hs.noWrap htx hl)⟩

theorem eagerHalf_high_ends_clear (hl : s.cfg.clearLimit ≤ s.clrCnt.toNat + 1) :
    ∃ duty, eagerHalf s = .next (setTx .idle (stopEngine (countCycle (consumeHalf duty .high s)))) := by
  obtain ⟨duty, hrun⟩ := eagerHalf_eq hs
  exact ⟨duty, hrun.trans
    (serveEvent_high_ends_clear (s := consumeHalf duty .high s) hs.config hs.noHalf hs.noWrap htx hl)⟩

end

end Sys2Proof.Machine
end

section
/-! PROOFS. A transmission in the eager schedule (42_event_handler.md R147, R148): which halves come out, with which
units. -/

namespace Sys2Proof.Machine

/-! ### The event that ends it (R147) -/

/-- ceil(units / k) halves of k slots hold every unit. -/
theorem units_le_ceil_mul {units k : Nat} (hk : 0 < k) : units ≤ (units + k - 1) / k * k := by
  have h := Nat.lt_div_mul_add (a := units + k - 1) hk
  omega

/-- The last event finds no unit left to encode. -/
theorem units_le_endEvent {c : Config} (hc : c.wf = true) (units : Nat) : units ≤ (endEvent c units + 1) * c.k := by
  have hle : (units + c.k - 1) / c.k ≤ endEvent c units + 1 := by rw [endEvent]; omega
  exact (units_le_ceil_mul (config_k_pos c hc)).trans (Nat.mul_le_mul_right _ hle)

/-- Every event before the last finds one. -/
theorem lt_units_of_lt_endEvent {c : Config} (hc : c.wf = true) {units e : Nat} (he : e + 1 < endEvent c units) :
    (e + 2) * c.k < units := by
  have hk := config_k_pos c hc
  have hle : e + 3 ≤ (units + c.k - 1) / c.k := by rw [endEvent] at he; omega
  have hmul := (Nat.mul_le_mul_right c.k hle).trans (Nat.div_mul_le_self ..)
  rw [Nat.succ_mul] at hmul
  omega

theorem one_le_endEvent (c : Config) (units : Nat) : 1 ≤ endEvent c units := Nat.le_max_left ..

/-! ### The halves of a transmission -/

/-- The half the engine streams after e events (R160). -/
def halfAt (e : Nat) : Half := if e % 2 = 0 then .low else .high

theorem halfAt_succ (e : Nat) : halfAt (e + 1) = otherHalf (halfAt e) := by
  rcases Nat.mod_two_eq_zero_or_one e with h | h <;> simp [halfAt, otherHalf, Nat.add_mod, h]

@[simp] theorem halfAt_add_two (e : Nat) : halfAt (e + 2) = halfAt e := by simp [halfAt]

/-- `es` is half e of the transmission that the accept step left in `u`: for e < 2 what the buffer then held; later the
units e × K and up, in order, with the slack entries as they were (R105, R148). -/
structure HalfImage (u : State) (e : Nat) (es : List Val) : Prop where
  length : es.length = u.cfg.half
  early : e < 2 → es = halfEntries u.cfg (halfAt e) u.buf
  units : 2 ≤ e → ∀ j k, j < u.cfg.k → k < 24 → e * u.cfg.k + j < totalUnits u →
    es[24 * j + k]? = (transmissionUnit u (e * u.cfg.k + j))[k]?
  slack : ∀ i, 24 * u.cfg.k ≤ i → i < u.cfg.half → es[i]? = u.buf[halfBase u.cfg (halfAt e) + i]?

/-- `out` is what stood on the pin before the transmission, and then its first e halves. -/
inductive Streams (u : State) : Nat → List Val → Prop where
  | start : Streams u 0 u.out
  | half {e : Nat} {out es : List Val} (hout : Streams u e out) (hes : HalfImage u e es) : Streams u (e + 1) (out ++ es)

theorem Streams.eq_append {u : State} {e : Nat} {out : List Val} (h : Streams u e out) :
    ∃ l, out = u.out ++ l ∧ l.length = e * u.cfg.half := by
  induction h with
  | start => exact ⟨[], by simp, by simp⟩
  | @half e out es _ hes ih =>
    obtain ⟨l, rfl, hl⟩ := ih
    exact ⟨l ++ es, List.append_assoc .., by rw [List.length_append, hl, hes.length, Nat.succ_mul]⟩

theorem Streams.length {u : State} {e : Nat} {out : List Val} (h : Streams u e out) :
    out.length = u.out.length + e * u.cfg.half := by
  obtain ⟨l, rfl, hl⟩ := h.eq_append
  rw [List.length_append, hl]

/-- Entry m of half e stands e × H + m entries after the start. -/
theorem Streams.getElem? {u : State} {n : Nat} {out : List Val} (h : Streams u n out) {e m : Nat} (he : e < n)
    (hm : m < u.cfg.half) : ∃ es, HalfImage u e es ∧ out[u.out.length + e * u.cfg.half + m]? = es[m]? := by
  induction h with
  | start => omega
  | @half n out es hout hes ih =>
    have hlen := hout.length
    rcases Nat.lt_succ_iff_lt_or_eq.mp he with he | rfl
    · obtain ⟨es', hes', heq⟩ := ih he
      refine ⟨es', hes', ?_⟩
      have hle : (e + 1) * u.cfg.half ≤ n * u.cfg.half := Nat.mul_le_mul_right _ he
      rw [Nat.succ_mul] at hle
      rw [List.getElem?_append_left (by omega), heq]
    · refine ⟨es, hes, ?_⟩
      rw [List.getElem?_append_right (by omega), hlen, Nat.add_sub_cancel_left]

/-! ### The schedule -/

/-- The start of a transmission: the accept step has encoded what it could, and the engine stands at entry 0 (R124). -/
structure SendStart (u : State) : Prop where
  atLow : AtHalf .low u
  sending : u.tx = .sending
  array : u.ledBase.toNat + u.ledCount.toNat ≤ ledmemSize
  fit : totalUnits u < 2 ^ 16
  progress : u.p.toNat = min (2 * u.cfg.k) (totalUnits u)

/-- The state of the transmission `u` after e events, none of which ended it. -/
def sendState (u : State) (e : Nat) (p : Count) (duty : Val) (buf out : List Val) : State :=
  { u with p := p, duty := duty, rdidx := halfBase u.cfg (halfAt e), buf := buf, out := out }

/-- What P, the buffer and the pulses are after e events: 2K more units are encoded than the halves streamed hold, and the
half to be streamed next and the one after it stand in the buffer. -/
structure SendAfter (u : State) (e : Nat) (p : Count) (buf out : List Val) : Prop where
  length : buf.length = u.cfg.n
  progress : p.toNat = min ((e + 2) * u.cfg.k) (totalUnits u)
  next : HalfImage u e (halfEntries u.cfg (halfAt e) buf)
  after : HalfImage u (e + 1) (halfEntries u.cfg (halfAt (e + 1)) buf)
  streams : Streams u e out

theorem consumeHalf_sendState (u : State) (e : Nat) (p : Count) (duty duty' : Val) (buf out : List Val) :
    consumeHalf duty' (halfAt e) (sendState u e p duty buf out) =
      sendState u (e + 1) p duty' buf (out ++ halfEntries u.cfg (halfAt e) buf) := by
  rw [sendState, sendState, halfAt_succ]; rfl

/-- Encoding one half leaves the other as it was (R104). -/
theorem encodeHalf_keeps_other_half {hf h : Half} {s t : State} (he : encodeHalf hf s = .next t) (hne : h ≠ hf) :
    halfEntries s.cfg h t.buf = halfEntries s.cfg h s.buf := by
  have hfit := config_slots_fit s.cfg
  have hhalves := halves_disjoint s.cfg hne
  refine halfEntries_congr fun i hi => encodeSlots_outside he _ ?_
  simp only [slotBase, unitSize]
  omega

theorem SendStart.sendAfter {u : State} (hu : SendStart u) : SendAfter u 0 u.p u.buf u.out := by
  have himage : ∀ e, e < 2 → HalfImage u e (halfEntries u.cfg (halfAt e) u.buf) := fun e he =>
    { length := halfEntries_length hu.atLow.config _ hu.atLow.length
      early := fun _ => rfl
      units := fun h => absurd h (by omega)
      slack := fun _ _ hi => halfEntries_getElem? _ _ hi }
  exact ⟨hu.atLow.length, by rw [hu.progress], himage 0 (by omega), himage 1 (by omega), .start⟩

theorem SendStart.atHalf {u : State} (hu : SendStart u) {e : Nat} {p : Count} {duty : Val} {buf out : List Val}
    (hlen : buf.length = u.cfg.n) : AtHalf (halfAt e) (sendState u e p duty buf out) :=
  ⟨hu.atLow.config, hlen, hu.atLow.busy, hu.atLow.running, rfl, hu.atLow.noHalf, hu.atLow.noWrap⟩

theorem sendState_start {u : State} (hu : SendStart u) : sendState u 0 u.p u.duty u.buf u.out = u := by
  have hr : halfBase u.cfg (halfAt 0) = u.rdidx := hu.atLow.rdidx.symm
  rw [sendState, hr]

section
variable {u : State} {e : Nat} {p : Count} {buf out : List Val} (hu : SendStart u) (hs : SendAfter u e p buf out)
include hu hs

/-- The half just streamed, refilled, holds the K units after those of the other half (R105). -/
theorem SendAfter.refilled (hp : p.toNat = (e + 2) * u.cfg.k) {duty : Val} {out' : List Val} {t : State}
    (ht : encodeHalf (halfAt e) (sendState u (e + 1) p duty buf out') = .next t) :
    HalfImage u (e + 2) (halfEntries u.cfg (halfAt e) t.buf) := by
  have hc := hu.atLow.config
  have hfit := config_slots_fit u.cfg
  have hlen := halfEntries_length hc (halfAt e) ((encodeSlots_length ht).trans hs.length)
  refine ⟨hlen, fun h => absurd h (by omega), ?units, ?slack⟩
  case units =>
    intro _ j k hj hk hlt
    have hin : 24 * j + k < u.cfg.half := by omega
    have hslot : t.buf[slotBase u.cfg (halfAt e) j + k]? =
        if p.toNat + j < totalUnits u then (transmissionUnit u (p.toNat + j))[k]?
        else buf[slotBase u.cfg (halfAt e) j + k]? := encodeHalf_slots ht hc hs.length hu.fit hj hk
    rw [hp, if_pos hlt, slotBase, unitSize, Nat.add_assoc] at hslot
    rw [halfEntries_getElem? _ _ hin, hslot]
  case slack =>
    intro i hlo hhi
    have hkept : t.buf[halfBase u.cfg (halfAt e) + i]? = buf[halfBase u.cfg (halfAt e) + i]? := by
      refine encodeSlots_outside ht _ (.inr ?_)
      show halfBase u.cfg (halfAt e) + 24 * (0 + u.cfg.k) ≤ _
      omega
    rw [halfEntries_getElem? _ _ hhi, hkept, ← halfEntries_getElem? _ _ hhi, hs.next.slack i hlo hhi, halfAt_add_two]

/-- An event with units left refills the half just streamed, and the transmission goes on (R141, R142). -/
theorem SendAfter.event_refills (duty : Val) (hlt : (e + 2) * u.cfg.k < totalUnits u) :
    ∃ p' duty' buf' out', eagerHalf (sendState u e p duty buf out) = .next (sendState u (e + 1) p' duty' buf' out') ∧
      SendAfter u (e + 1) p' buf' out' := by
  have hp : p.toNat = (e + 2) * u.cfg.k := hs.progress.trans (Nat.min_eq_left hlt.le)
  have hleft : p.toNat < totalUnits u := hp ▸ hlt
  have hat : AtHalf (halfAt e) (sendState u e p duty buf out) := hu.atHalf hs.length
  obtain ⟨duty', hrun⟩ := eagerHalf_refills hat hu.sending hleft
  rw [consumeHalf_sendState] at hrun
  obtain ⟨t, ht⟩ : ∃ t, encodeHalf (halfAt e)
      (sendState u (e + 1) p duty' buf (out ++ halfEntries u.cfg (halfAt e) buf)) = .next t := encodeSlots_runs hu.array
  have hprogress : t.p.toNat = min (p.toNat + u.cfg.k) (totalUnits u) := encodeSlots_progress ht hu.fit hleft.le
  have hkept : halfEntries u.cfg (halfAt (e + 1)) t.buf = halfEntries u.cfg (halfAt (e + 1)) buf :=
    encodeHalf_keeps_other_half ht (by rw [halfAt_succ]; exact otherHalf_ne _)
  have hrefilled := hs.refilled hu hp ht
  rw [← halfAt_add_two] at hrefilled
  refine ⟨t.p, duty', t.buf, _, hrun.trans (ht.trans (congrArg _ (encodeHalf_frame ht))), ?_⟩
  exact {
    length := (encodeSlots_length ht).trans hs.length
    progress := by rw [hprogress, hp, Nat.succ_mul (e + 2)]
    next := hkept ▸ hs.after
    after := hrefilled
    streams := .half hs.streams hs.next }

/-- An event with no unit left ends the transmission (R141, R142, R145). -/
theorem SendAfter.event_ends (duty : Val) (hle : totalUnits u ≤ (e + 2) * u.cfg.k) :
    p.toNat = totalUnits u ∧ ∃ duty' out', Streams u (e + 1) out' ∧
      eagerHalf (sendState u e p duty buf out) =
        .next (setTx .idle (stopEngine (sendState u (e + 1) p duty' buf out'))) := by
  have hp : p.toNat = totalUnits u := hs.progress.trans (Nat.min_eq_right hle)
  refine ⟨hp, ?_⟩
  have hat : AtHalf (halfAt e) (sendState u e p duty buf out) := hu.atHalf hs.length
  obtain ⟨duty', hrun⟩ := eagerHalf_ends hat hu.sending hp.ge
  rw [consumeHalf_sendState] at hrun
  exact ⟨duty', _, .half hs.streams hs.next, hrun⟩

end

section
variable {u : State} (hu : SendStart u)
include hu

/-- Before event E the transmission goes on (R147). -/
theorem SendStart.goes_on {e : Nat} (he : e < endEvent u.cfg (totalUnits u)) :
    ∃ p duty buf out, eagerHalves e u = .next (sendState u e p duty buf out) ∧ SendAfter u e p buf out := by
  induction e with
  | zero => exact ⟨u.p, u.duty, u.buf, u.out, congrArg _ (sendState_start hu).symm, hu.sendAfter⟩
  | succ e ih =>
    obtain ⟨p, duty, buf, out, hrun, hs⟩ := ih (by omega)
    obtain ⟨p', duty', buf', out', hnext, hs'⟩ :=
      hs.event_refills hu duty (lt_units_of_lt_endEvent hu.atLow.config he)
    exact ⟨p', duty', buf', out', by rw [eagerHalves_succ_last, hrun, andThen_next, hnext], hs'⟩

/-- Event E ends it, after E halves (R147). -/
theorem SendStart.ends {n : Nat} (hn : endEvent u.cfg (totalUnits u) = n) :
    ∃ p duty buf out, eagerHalves n u = .next (setTx .idle (stopEngine (sendState u n p duty buf out))) ∧
      p.toNat = totalUnits u ∧ Streams u n out := by
  obtain ⟨e, rfl⟩ : ∃ e, n = e + 1 := ⟨n - 1, by have := one_le_endEvent u.cfg (totalUnits u); omega⟩
  obtain ⟨p, duty, buf, out, hrun, hs⟩ := hu.goes_on (e := e) (by omega)
  have hle := units_le_endEvent hu.atLow.config (totalUnits u)
  rw [hn] at hle
  obtain ⟨hp, duty', out', hstreams, hlast⟩ := hs.event_ends hu duty hle
  exact ⟨p, duty', buf, out', by rw [eagerHalves_succ_last, hrun, andThen_next, hlast], hp, hstreams⟩

end

/-- Settles O57: each event before the last refills a half, the last ends the transmission, and a half is H pulses. -/
theorem sendLastsEHalves : Obligations.SendLastsEHalves := by
  rintro s hc ⟨hlen, -, -⟩ ⟨harray, hfit⟩ htx hb hg hr hh hw hp
  have hu : SendStart s := {
    atLow := ⟨hc, hlen, hb, hg, by rw [hr, halfBase_low], hh, hw⟩
    sending := htx, array := harray, fit := hfit, progress := hp }
  refine ⟨?_, fun e he => ?_⟩
  · obtain ⟨p, duty, buf, out, hrun, hunits, hstreams⟩ := hu.ends rfl
    exact ⟨_, hrun, rfl, rfl, hunits, hstreams.length⟩
  · obtain ⟨p, duty, buf, out, hrun, -⟩ := hu.goes_on he
    exact ⟨_, hrun, htx⟩

end Sys2Proof.Machine
end

section
/-! PROOFS. The frame a SEND puts on the pin (42_event_handler.md R148): the entries of the halves streamed, from the
accept step on. -/

namespace Sys2Proof.Machine

/-! ### The accept step -/

/-- The state in which a SEND of the array starts, once the accept step has encoded `p` units into `buf` (R124). -/
def acceptedState (base : LedIndex) (count : Count) (p : Count) (buf : List Val) (s : State) : State :=
  { s with
    ledBase := base, ledCount := count, p := p, buf := buf, tx := .sending, engine := .busy, rdidx := 0
    halfPend := false, wrapPend := false, hphase := .free }

theorem acceptSend_length {base : LedIndex} {count : Count} {s t : State} (h : acceptSend base count s = .next t) :
    t.buf.length = s.buf.length := by
  obtain ⟨s1, s2, h1, h2, rfl⟩ := acceptSend_cases h
  exact (encodeSlots_length h2).trans (encodeSlots_length (s := storeReference base count s) h1)

theorem transmissionUnit_getElem? (s : State) (x : Nat) {k : Nat} (hk : k < 24) :
    (transmissionUnit s x)[k]? =
      if x < s.ledCount.toNat then (dataUnit s.cfg (ledRead s.ledmem (s.ledBase.toNat + x)))[k]?
      else some s.cfg.w0 := by
  rw [transmissionUnit]
  split
  · rfl
  · exact deadUnit_getElem? _ _ hk

/-- Entry k of unit x of a SEND: of LED x, then of a dead-time unit, then of what the slot held before (R53, R90,
R148). -/
def sentEntry (s : State) (base : LedIndex) (count : Count) (x k : Nat) : Option Val :=
  if x < count.toNat then (dataUnit s.cfg (ledRead s.ledmem (base.toNat + x)))[k]?
  else if x < count.toNat + s.cfg.d then some s.cfg.w0
  else s.buf[slotBase s.cfg (halfAt (x / s.cfg.k)) (x % s.cfg.k) + k]?

section
variable {s : State} {base : LedIndex} {count : Count}

theorem sentEntry_of_unit {x k : Nat} (hx : x < count.toNat + s.cfg.d) (hk : k < 24) :
    sentEntry s base count x k = (transmissionUnit { s with ledBase := base, ledCount := count } x)[k]? := by
  rw [transmissionUnit_getElem? _ _ hk, sentEntry, if_pos hx]

/-- Unit e × K + j belongs to slot j of half e. -/
theorem sentEntry_of_stale {e j k : Nat} (hj : j < s.cfg.k) (hx : count.toNat + s.cfg.d ≤ e * s.cfg.k + j) :
    sentEntry s base count (e * s.cfg.k + j) k = s.buf[slotBase s.cfg (halfAt e) j + k]? := by
  have hdiv : (e * s.cfg.k + j) / s.cfg.k = e := by
    rw [Nat.mul_comm, Nat.mul_add_div (by omega), Nat.div_eq_of_lt hj, Nat.add_zero]
  have hmod : (e * s.cfg.k + j) % s.cfg.k = j := by rw [Nat.mul_add_mod_self_right, Nat.mod_eq_of_lt hj]
  rw [sentEntry, if_neg (by omega), if_neg (by omega), hdiv, hmod]

/-- The accept step of a held SEND starts a transmission; its buffer holds the first 2K units, and the slack entries of
before (R124). -/
theorem exec_send_starts (hc : s.cfg.wf = true) (hlen : s.buf.length = s.cfg.n) (hi : s.inited = true)
    (hg : s.genRun = true) (hp : s.hphase = .waitSend) (hw : s.hcmd = sendWord base count) (htx : s.tx = .idle)
    (he : s.engine = .ready) (hr : base.toNat + count.toNat ≤ ledmemSize) (hfit : count.toNat + s.cfg.d < 2 ^ 16) :
    ∃ p buf, exec (.send base count) s = .next (acceptedState base count p buf s) ∧
      SendStart (acceptedState base count p buf s) ∧
      (∀ e j k, e < 2 → j < s.cfg.k → k < 24 →
        buf[slotBase s.cfg (halfAt e) j + k]? = sentEntry s base count (e * s.cfg.k + j) k) ∧
      ∀ h i, halfBase s.cfg h + 24 * s.cfg.k ≤ i → i < halfBase s.cfg h + s.cfg.half → buf[i]? = s.buf[i]? := by
  obtain ⟨u, hrun, hprogress, hslots, hslack, hframe⟩ := sendAccepted s base count hc hi hp hw htx he hlen hr hfit
  have haccept := (exec_send_waits hc hi hp hw).trans (waitAtPort_accepts ((idleReady_iff s).mpr ⟨htx, he⟩))
  have hulen := (acceptSend_length (haccept.symm.trans hrun)).trans hlen
  refine ⟨u.p, u.buf, hrun.trans (congrArg _ hframe), ?start, fun e j k he hj hk => ?slots, hslack⟩
  case start => exact {
    atLow := ⟨hc, hulen, rfl, hg, (halfBase_low _).symm, rfl, rfl⟩
    sending := rfl, array := hr, fit := hfit, progress := hprogress }
  case slots =>
    have hindex : halfIndex (halfAt e) = e := by
      obtain rfl | rfl : e = 0 ∨ e = 1 := by omega
      all_goals rfl
    rw [hslots _ _ _ hj hk, hindex]
    split
    · exact (sentEntry_of_unit (by assumption) hk).symm
    · exact (sentEntry_of_stale hj (by omega)).symm

/-! ### The entries emitted -/

/-- A half streamed holds the units of the SEND in its slots, as far as there are any, and stale slots in the first two
halves alone. -/
theorem HalfImage.slot {p : Count} {buf es : List Val} {e j k : Nat}
    (h : HalfImage (acceptedState base count p buf s) e es)
    (hslots : ∀ e j k, e < 2 → j < s.cfg.k → k < 24 →
      buf[slotBase s.cfg (halfAt e) j + k]? = sentEntry s base count (e * s.cfg.k + j) k)
    (hj : j < s.cfg.k) (hk : k < 24) (hx : 2 ≤ e → e * s.cfg.k + j < count.toNat + s.cfg.d) :
    es[24 * j + k]? = sentEntry s base count (e * s.cfg.k + j) k := by
  have hfit := config_slots_fit s.cfg
  rcases Nat.lt_or_ge e 2 with he | he
  · have hentry := hslots e j k he hj hk
    rw [slotBase, unitSize, Nat.add_assoc] at hentry
    rw [h.early he, ← hentry]
    exact halfEntries_getElem? (c := s.cfg) _ _ (by omega)
  · rw [sentEntry_of_unit (hx he) hk]
    exact h.units he j k hj hk (hx he)

end

/-- From the third half on, every slot emitted holds a unit. -/
theorem endEvent_mul_lt_units {c : Config} (hc : c.wf = true) {units : Nat} (h : 2 ≤ endEvent c units) :
    endEvent c units * c.k < units := by
  have hlt := lt_units_of_lt_endEvent hc (units := units) (e := endEvent c units - 2) (by omega)
  rwa [Nat.sub_add_cancel h] at hlt

/-- Settles O58: the accept step leaves the first two halves in the buffer, the refills put the later units there, and the
engine streams half after half. -/
theorem sendStreamsTheFrame : Obligations.SendStreamsTheFrame := by
  rintro s base count hc ⟨hlen, -, -⟩ hi hg hp hw htx he hr hfit
  have hk := config_k_pos s.cfg hc
  have hslotsfit := config_slots_fit s.cfg
  refine ⟨?frame, fun hd => ?count⟩
  case count =>
    have hle := units_le_endEvent hc (count.toNat + s.cfg.d)
    rw [Nat.succ_mul] at hle
    omega
  case frame =>
    obtain ⟨p, buf, hrun, hu, hslots, hslack⟩ := exec_send_starts hc hlen hi hg hp hw htx he hr hfit
    obtain ⟨p', duty, buf', out, hend, -, hout⟩ := hu.ends rfl
    obtain ⟨l, happend, -⟩ := hout.eq_append
    refine ⟨_, _, hrun, hend, rfl, ?before, hout.length, fun x k hx hk24 => ?slot,
      fun hslackOk e i he hlo hhi => ?slack⟩
    case before =>
      show out.take s.out.length = s.out
      rw [happend]
      exact List.take_left
    case slot =>
      have hE : x / s.cfg.k < endEvent s.cfg (count.toNat + s.cfg.d) := Nat.div_lt_of_lt_mul (by rwa [Nat.mul_comm])
      have hj : x % s.cfg.k < s.cfg.k := Nat.mod_lt _ hk
      have hsplit : x / s.cfg.k * s.cfg.k + x % s.cfg.k = x := Nat.div_add_mod' x s.cfg.k
      obtain ⟨es, hes, hentry⟩ := hout.getElem? hE (m := 24 * (x % s.cfg.k) + k)
        (show 24 * (x % s.cfg.k) + k < s.cfg.half by omega)
      have hunit : 2 ≤ x / s.cfg.k → x / s.cfg.k * s.cfg.k + x % s.cfg.k < count.toNat + s.cfg.d := fun h2 =>
        hsplit.symm ▸ hx.trans (endEvent_mul_lt_units hc (by omega))
      have hslot := hes.slot hslots hj hk24 hunit
      rw [hsplit] at hslot
      rw [Nat.add_assoc]
      exact hentry.trans hslot
    case slack =>
      obtain ⟨es, hes, hentry⟩ := hout.getElem? he (m := i) hhi
      have hbuf := hslack (halfAt e) (halfBase s.cfg (halfAt e) + i) (by omega) (by omega)
      have hw0 := hslackOk hi (halfAt e) (halfBase s.cfg (halfAt e) + i) (by rw [unitSize]; omega) (by omega)
      exact hentry.trans ((hes.slack i hlo hhi).trans (hbuf.trans hw0))

end Sys2Proof.Machine
end

section
/-! PROOFS. A clear in the eager schedule (42_event_handler.md R149), from the start of the clear, from CLEAR's accept step and
from INIT. -/

namespace Sys2Proof.Machine

/-- The start of a clear: STATE and the engine as `beginClear` leaves them (R120, R128). -/
structure ClearStart (s : State) : Prop where
  atLow : AtHalf .low s
  clearing : s.tx = .clearing
  uncounted : s.clrCnt = 0
  blank : s.buf = List.replicate s.cfg.n s.cfg.w0

/-- The clear `s` after c whole cycles of W0. -/
def clearState (s : State) (c : Nat) (duty : Val) : State :=
  { s with duty := duty, clrCnt := BitVec.ofNat 16 c, out := s.out ++ List.replicate (c * s.cfg.n) s.cfg.w0 }

theorem halfEntries_blank {c : Config} (hc : c.wf = true) (h : Half) (v : Val) :
    halfEntries c h (List.replicate c.n v) = List.replicate c.half v := by
  have hfit := half_in_buffer hc h
  rw [halfEntries, List.drop_replicate, List.take_replicate, Nat.min_eq_left (by omega)]

theorem clearState_clrCnt (s : State) {c : Nat} (hc : c < 2 ^ 16) (duty : Val) :
    (clearState s c duty).clrCnt.toNat = c :=
  (BitVec.toNat_ofNat ..).trans (Nat.mod_eq_of_lt hc)

section
variable {s : State} (hs : ClearStart s)
include hs

theorem clearState_start : clearState s 0 s.duty = s := by
  have hcount : BitVec.ofNat 16 0 = s.clrCnt := hs.uncounted.symm
  rw [clearState, hcount, Nat.zero_mul, List.replicate_zero, List.append_nil]

/-- Both halves of a blank buffer, streamed and counted, are one more cycle. -/
theorem countCycle_consumeBoth (c : Nat) (duty duty' duty'' : Val) :
    countCycle (consumeHalf duty'' .high (consumeHalf duty' .low (clearState s c duty))) =
      clearState s (c + 1) duty'' := by
  have hc := hs.atLow.config
  have hout : s.out ++ List.replicate (c * s.cfg.n) s.cfg.w0 ++ halfEntries s.cfg .low s.buf ++
      halfEntries s.cfg .high s.buf = s.out ++ List.replicate ((c + 1) * s.cfg.n) s.cfg.w0 := by
    have hn : (c + 1) * s.cfg.n = c * s.cfg.n + s.cfg.half + s.cfg.half := by
      have hdouble := config_half_double s.cfg hc
      rw [Nat.succ_mul]; omega
    rw [hs.blank, halfEntries_blank hc, halfEntries_blank hc, hn, List.append_assoc, List.append_assoc,
      List.replicate_append_replicate, List.replicate_append_replicate, Nat.add_assoc]
  have hcount : BitVec.ofNat 16 c + 1 = BitVec.ofNat 16 (c + 1) := (BitVec.ofNat_add c 1).symm
  have hr : halfBase s.cfg .low = s.rdidx := hs.atLow.rdidx.symm
  simp only [countCycle, consumeHalf, clearState, otherHalf, hout, hcount, hr]

theorem ClearStart.atLow_clearState (c : Nat) (duty : Val) : AtHalf .low (clearState s c duty) := by
  obtain ⟨hc, hlen, hb, hg, hr, hh, hw⟩ := hs.atLow
  exact ⟨hc, hlen, hb, hg, hr, hh, hw⟩

section
variable {c : Nat} (hlimit : c < 2 ^ 16) (duty : Val)
include hlimit

/-- Of the two events of a cycle the half-consumed one is only acknowledged; the wrap counts (R142, R146). -/
theorem eagerHalves_cycle_counts (hl : c + 1 < s.cfg.clearLimit) :
    ∃ duty', eagerHalves 2 (clearState s c duty) = .next (clearState s (c + 1) duty') := by
  rw [← clearState_clrCnt s hlimit duty] at hl
  have hlow := hs.atLow_clearState c duty
  obtain ⟨duty', hrun⟩ := eagerHalf_low_clearing hlow hs.clearing
  obtain ⟨duty'', hrun'⟩ := eagerHalf_high_counts (hlow.consumeHalf duty') hs.clearing hl
  exact ⟨duty'', by rw [eagerHalves_two hrun, hrun', countCycle_consumeBoth hs]⟩

theorem eagerHalves_cycle_ends (hl : s.cfg.clearLimit ≤ c + 1) :
    ∃ duty', eagerHalves 2 (clearState s c duty) = .next (setTx .idle (stopEngine (clearState s (c + 1) duty'))) := by
  rw [← clearState_clrCnt s hlimit duty] at hl
  have hlow := hs.atLow_clearState c duty
  obtain ⟨duty', hrun⟩ := eagerHalf_low_clearing hlow hs.clearing
  obtain ⟨duty'', hrun'⟩ := eagerHalf_high_ends_clear (hlow.consumeHalf duty') hs.clearing hl
  exact ⟨duty'', by rw [eagerHalves_two hrun, hrun', countCycle_consumeBoth hs]⟩

end

/-- Below the limit each pair of events is one whole cycle. -/
theorem ClearStart.cycles {c : Nat} (hl : c < s.cfg.clearLimit) :
    ∃ duty, eagerHalves (2 * c) s = .next (clearState s c duty) := by
  obtain ⟨-, -, -, -, -, -, -, hfit, -⟩ := (config_wf_iff s.cfg).mp hs.atLow.config
  induction c with
  | zero => exact ⟨s.duty, congrArg _ (clearState_start hs).symm⟩
  | succ c ih =>
    obtain ⟨duty, hrun⟩ := ih (by omega)
    obtain ⟨duty', hnext⟩ := eagerHalves_cycle_counts hs (c := c) (by omega) duty hl
    exact ⟨duty', by rw [Nat.mul_succ, eagerHalves_add, hrun, andThen_next, hnext]⟩

/-- The last cycle reaches the limit and ends the clear. -/
theorem ClearStart.clearsInCycles : ClearsInCycles s s.out := by
  obtain ⟨-, -, -, -, -, -, hpos, hfit, -⟩ := (config_wf_iff s.cfg).mp hs.atLow.config
  obtain ⟨c, hc⟩ : ∃ c, s.cfg.clearLimit = c + 1 := ⟨s.cfg.clearLimit - 1, by omega⟩
  obtain ⟨duty, hrun⟩ := hs.cycles (c := c) (by omega)
  obtain ⟨duty', hlast⟩ := eagerHalves_cycle_ends hs (c := c) (by omega) duty hc.le
  have hend : eagerHalves (2 * (c + 1)) s = .next (setTx .idle (stopEngine (clearState s (c + 1) duty'))) := by
    rw [Nat.mul_succ, eagerHalves_add, hrun, andThen_next, hlast]
  rw [ClearsInCycles, hc]
  exact ⟨_, hend, rfl, rfl, clearState_clrCnt s (by omega) duty', hs.blank, rfl⟩

end

theorem beginClear_clearStart {s : State} (hc : s.cfg.wf = true) (hg : s.genRun = true) :
    ClearStart (beginClear s) where
  atLow := ⟨hc, List.length_replicate .., rfl, hg, (halfBase_low _).symm, rfl, rfl⟩
  clearing := rfl
  uncounted := rfl
  blank := rfl

theorem ClearStart.freePort {s : State} (hs : ClearStart s) : ClearStart (freePort s) := by
  obtain ⟨⟨hc, hlen, hb, hg, hr, hh, hw⟩, htx, hcount, hblank⟩ := hs
  exact ⟨⟨hc, hlen, hb, hg, hr, hh, hw⟩, htx, hcount, hblank⟩

/-- Settles O59: CLEAR's accept step and INIT both begin a clear, whose every pair of events is one cycle of W0. -/
theorem clearEmitsWholeCycles : Obligations.ClearEmitsWholeCycles := by
  refine ⟨?started, ?clear, ?init⟩
  case started =>
    rintro s hc ⟨hlen, -, -⟩ htx hb hg hr hh hw hcount hblank
    have hlow : AtHalf .low s := ⟨hc, hlen, hb, hg, by rw [hr, halfBase_low], hh, hw⟩
    exact ClearStart.clearsInCycles ⟨hlow, htx, hcount, hblank⟩
  case clear =>
    intro s base count hc hi hg hp hw htx he
    exact ⟨_, clearAccepted s base count hc hi hp hw htx he, (beginClear_clearStart hc hg).freePort.clearsInCycles⟩
  case init =>
    intro s hc hi hp
    exact ⟨_, exec_init_runs hc hi hp, (beginClear_clearStart (s := setUp s) hc rfl).clearsInCycles⟩

end Sys2Proof.Machine
end

section
/-! PROOFS. The Block Transfer Engine (43_block_transfer_engine.md R161 to R166): start, stop, and one transfer with the event it
raises or the Overrun it is. -/

namespace Sys2Proof.Machine

/-! ### ENG_START and ENG_STOP -/

theorem exec_engStart_runs {s : State} (hc : s.cfg.wf = true) : exec .engStart s = .next (startEngine s) :=
  guardConfig_ok hc _

theorem exec_engStop_runs {s : State} (hc : s.cfg.wf = true) : exec .engStop s = .next (stopEngine s) :=
  guardConfig_ok hc _

/-- Settles O13: ENG_START writes these four registers and no other. -/
theorem engStartEffect : Obligations.EngStartEffect := fun _ hc => exec_engStart_runs hc

/-- The ENGINE has no step while it does not run, at either level of description. -/
theorem fetch_engine_pass {s : State} (hr : engineRuns s = false) : fetch .engine s = .pass := by
  cases hl : s.cfg.level with
  | period => simp only [fetch, fetchEngine, hl, hr, Bool.false_eq_true, if_false]
  | tick => simp only [fetch, fetchEngine, hl]

/-- Settles O14: the stopped engine does not run, so the transfer is refused and the turn passes. -/
theorem engStopEffect : Obligations.EngStopEffect := by
  intro s hc
  have hr : engineRuns (stopEngine s) = false := engineRuns_eq_false_of_ready_or_stopped (.inl rfl)
  exact ⟨_, exec_engStop_runs hc, rfl, exec_engXfer_refuses (s := stopEngine s) hc hr, fetch_engine_pass hr⟩

/-! ### One transfer -/

/-- Settles O15: the guard holds, the transfer is no Overrun, and moving the entry writes these registers. -/
theorem engXferEffect : Obligations.EngXferEffect := by
  intro s v hc hb hg hv hlate
  rw [exec_engXfer_runs hc ((engineRuns_iff s).mpr ⟨hb, hg⟩), transferEntry_runs ((overruns_eq_false s).mpr hlate) hv]
  rfl

/-- The transfer that raises the half-consumed event reads entry H − 1 (R164). -/
theorem raisesHalf_iff_last_of_low {s : State} (hc : s.cfg.wf = true) (hr : s.rdidx < s.cfg.n) :
    raisesHalf s = true ↔ s.rdidx = s.cfg.half - 1 := by
  have hdouble := config_half_double s.cfg hc
  rw [raisesHalf_iff, nextRdidx_eq hr]
  split <;> omega

/-- The transfer that raises the wrap event reads entry N − 1 (R164). -/
theorem raisesWrap_iff_last {s : State} (hr : s.rdidx < s.cfg.n) : raisesWrap s = true ↔ s.rdidx = s.cfg.n - 1 := by
  rw [raisesWrap_iff, nextRdidx_eq hr]
  split <;> omega

/-- Settles O16: a transfer adds to each flag the event it raises, and each event has its one entry. -/
theorem eventsAtHalfBoundaries : Obligations.EventsAtHalfBoundaries := by
  intro s t hr h
  obtain ⟨hc, -, -, v, -, rfl⟩ := execEngXfer_cases h
  rw [moveEntry_halfPend, moveEntry_wrapPend, Bool.or_eq_true, Bool.or_eq_true, raisesHalf_iff_last_of_low hc hr,
    raisesWrap_iff_last hr]
  exact ⟨Iff.rfl, Iff.rfl⟩

/-! ### Overrun -/

theorem transferEntry_overrun_iff (s : State) : transferEntry s = .fault .overrun ↔ overruns s = true := by
  rw [transferEntry]
  split
  · simp [*]
  · split <;> simp [*]

/-- What comes after a part of an operation and always answers a state adds no fault. -/
theorem andThen_next_eq_fault (o : Result) (f : State → State) (r : Fault) :
    (andThen o fun t => .next (f t)) = .fault r ↔ o = .fault r := by
  cases o <;> simp

/-- Settles O17: the transfer of ENG_XFER faults so exactly when it overruns, and GEN_TICK adds no fault to it. -/
theorem overrunExactlyWhenLate : Obligations.OverrunExactlyWhenLate := by
  intro s hc hb hg
  rw [exec_engXfer_runs hc ((engineRuns_iff s).mpr ⟨hb, hg⟩)]
  refine ⟨(transferEntry_overrun_iff s).trans (overruns_iff s), fun ht => ?_⟩
  rw [exec_genTick_runs hc hg, andThen_next_eq_fault, startPeriod, if_pos ht, if_pos hb, andThen_next_eq_fault]

/-! ### Transfers in a row -/

/-- Settles O18: the state after the transfers is the streamed one, field by field. -/
theorem transfersStreamTheHalf : Obligations.TransfersStreamTheHalf := by
  intro s m hc ⟨hlen, hr, _⟩ hb hg hh hw hm
  obtain ⟨duty, ht⟩ := transfers_eq_streamed hc hlen hr hb hg hh hw m hm
  exact ⟨_, ht, rfl, rfl, decide_eq_true_iff, decide_eq_true_iff, rfl⟩

end Sys2Proof.Machine
end

section
/-! PROOFS. The measure of a transmission (43_block_transfer_engine.md R165, R166): how many transfers can still be made, how many
ticks are left to the next one, and what each agent's step does to these two counts. -/

namespace Sys2Proof.Machine

/-! ### The counts -/

/-- A bound on the wrap events after which the HANDLER goes on with the transmission: each encodes at least one unit, or counts
one clear cycle (R142). -/
def servesLeft (s : State) : Nat :=
  match s.tx with
  | .sending => totalUnits s - s.p.toNat
  | .clearing => s.cfg.clearLimit - s.clrCnt.toNat
  | .idle | .done => 0

/-- A bound on the wrap events still to be raised: one after each that is served, and one now if none is pending (R166). -/
def wrapsLeft (s : State) : Nat := servesLeft s + if s.wrapPend then 0 else 1

/-- A bound on the transfers to come: a whole cycle of the buffer for each wrap event, and those before the next one or the
Overrun in its place. -/
def transfersLeft (s : State) : Nat := wrapsLeft s * s.cfg.n + (s.cfg.n - s.rdidx)

/-- How many ticks there are before the first tick of a period (R184). -/
def ticksLeft (s : State) : Nat := if s.tick = 0 then 0 else s.cfg.period - s.tick

/-- From `s` to `t` no pulse was emitted, and the next transfer and the end of the transmission came no further away. -/
structure Waits (s t : State) : Prop where
  out : t.out = s.out
  transfers : transfersLeft t ≤ transfersLeft s
  ticks : ticksLeft t = ticksLeft s

theorem Waits.refl (s : State) : Waits s s := ⟨rfl, le_rfl, rfl⟩

theorem Waits.trans {s t u : State} (h : Waits s t) (h' : Waits t u) : Waits s u :=
  ⟨h'.out.trans h.out, h'.transfers.trans h.transfers, h'.ticks.trans h.ticks⟩

/-- The counts do not read the schedule and the HOST's sequence. -/
theorem waits_schedule (s : State) (l : List HostItem) (ts : List Agent) (n : Nat) :
    Waits s { s with script := l, turns := ts, turnCount := n } := ⟨rfl, le_rfl, rfl⟩

theorem transfersLeft_le_of_wrapsLeft {s t : State} (hcfg : t.cfg = s.cfg) (hr : t.rdidx = s.rdidx)
    (hw : wrapsLeft t ≤ wrapsLeft s) : transfersLeft t ≤ transfersLeft s := by
  rw [transfersLeft, transfersLeft, hcfg, hr]
  exact Nat.add_le_add_right (Nat.mul_le_mul_right _ hw) _

/-- An operation ends at a duty of the caller or the integrator, or answers a state with `P`. -/
abbrev Brings (o : Result) (P : State → Prop) : Prop := DutyStop o ∨ ∃ t, o = .next t ∧ P t

theorem Brings.imp {o : Result} {P Q : State → Prop} (h : Brings o P) (hPQ : ∀ t, o = .next t → P t → Q t) : Brings o Q :=
  Or.imp_right (fun ⟨t, ht, hp⟩ => ⟨t, ht, hPQ t ht hp⟩) h

/-- What comes after a stop in one atomic step is not reached. -/
theorem dutyStop_andThen {o : Result} (h : DutyStop o) (f : State → Result) : DutyStop (andThen o f) := by
  cases h <;> constructor

/-! ### A running engine -/

theorem Inv.busy_of_not_idle {s : State} (h : Inv s) (htx : s.tx ≠ .idle) : s.engine = .busy := by
  obtain ⟨-, hbusy, -⟩ := h.control
  exact hbusy.mpr htx

theorem Inv.not_idle_of_busy {s : State} (h : Inv s) (hb : s.engine = .busy) : s.tx ≠ .idle := by
  obtain ⟨-, hbusy, -⟩ := h.control
  exact hbusy.mp hb

theorem Inv.inited_of_busy {s : State} (h : Inv s) (hb : s.engine = .busy) : s.inited = true := by
  obtain ⟨-, hbusy, -, hinit⟩ := h.control
  cases hi : s.inited with
  | true => rfl
  | false => exact absurd (hinit hi).1 (hbusy.mp hb)

theorem Inv.genRun_of_busy {s : State} (h : Inv s) (hb : s.engine = .busy) : s.genRun = true := by
  obtain ⟨-, -, hgen, -⟩ := h.control
  exact hgen.trans (h.inited_of_busy hb)

theorem Inv.sending_or_clearing_of_busy {s : State} (h : Inv s) (hb : s.engine = .busy) :
    s.tx = .sending ∨ s.tx = .clearing := by
  obtain ⟨hdone, hbusy, -⟩ := h.control
  cases htx : s.tx with
  | sending => exact .inl rfl
  | clearing => exact .inr rfl
  | idle => exact absurd htx (hbusy.mp hb)
  | done => exact absurd htx hdone

theorem Inv.ready_of_idle {s : State} (h : Inv s) (htx : s.tx = .idle) : s.engine = .ready := by
  cases he : s.engine with
  | ready => rfl
  | busy => exact absurd htx (h.not_idle_of_busy he)

/-! ### The transfer and the tick -/

/-- A transfer that is no Overrun takes one off the transfers left: RDIDX rises, or the wrap event is raised, which takes its
cycle off (R164, R166). -/
theorem transfersLeft_moveEntry {s : State} (hr : s.rdidx < s.cfg.n) (ho : overruns s = false) (v : Val) :
    transfersLeft (moveEntry v s) < transfersLeft s := by
  have hserves : servesLeft (moveEntry v s) = servesLeft s := rfl
  rw [transfersLeft, transfersLeft, wrapsLeft, wrapsLeft, hserves, moveEntry_wrapPend, moveEntry_rdidx, moveEntry_cfg]
  by_cases hlast : s.rdidx + 1 = s.cfg.n
  · have hnext : nextRdidx s = 0 := by rw [nextRdidx_eq hr, if_pos hlast]
    obtain ⟨-, hw⟩ := (overruns_eq_false s).mp ho (.inr hnext)
    rw [(raisesWrap_iff s).mpr hnext, hw, hnext, Bool.or_true, if_pos rfl, if_neg nofun, Nat.succ_mul, Nat.add_zero]
    omega
  · have hnext : nextRdidx s = s.rdidx + 1 := by rw [nextRdidx_eq hr, if_neg hlast]
    have hraise : raisesWrap s = false := by rw [← Bool.not_eq_true, raisesWrap_iff]; omega
    rw [hraise, hnext, Bool.or_false]
    omega

theorem transferEntry_advances {s : State} (h : Inv s) :
    Brings (transferEntry s) fun t => ∃ v, t = moveEntry v s ∧ transfersLeft t < transfersLeft s := by
  cases ho : overruns s with
  | true => rw [(transferEntry_overrun_iff s).mpr ho]; exact .inl .overrun
  | false =>
    have hv : s.buf[s.rdidx]? = some (s.buf[s.rdidx]'(h.buf_length.symm ▸ h.rdidx_lt)) := List.getElem?_eq_getElem _
    exact .inr ⟨_, transferEntry_runs ho hv, _, rfl, transfersLeft_moveEntry h.rdidx_lt ho _⟩

theorem ticksLeft_drivePin {s : State} (hlt : s.tick < s.cfg.period) (ht : s.tick ≠ 0) :
    ticksLeft (drivePin s) < ticksLeft s := by
  have hnext : (drivePin s).tick = (s.tick + 1) % s.cfg.period := rfl
  have hcfg : (drivePin s).cfg = s.cfg := rfl
  rw [ticksLeft, ticksLeft, if_neg ht, hnext, hcfg]
  rcases Nat.lt_or_eq_of_le (Nat.succ_le_of_lt hlt) with hlt' | heq
  · rw [Nat.mod_eq_of_lt hlt', if_neg (Nat.succ_ne_zero _)]; omega
  · rw [show s.tick + 1 = s.cfg.period from heq, Nat.mod_self, if_pos rfl]; omega

/-- How a step brings the transmission on: it ends it, makes a transfer, or comes a tick nearer to one. -/
inductive Advances (s t : State) : Prop where
  | ended (htx : t.tx = .idle)
  | transferred (hout : s.out.length < t.out.length) (hleft : transfersLeft t < transfersLeft s)
  | ticked (hout : t.out = s.out) (hleft : transfersLeft t ≤ transfersLeft s) (htick : ticksLeft t < ticksLeft s)

theorem Advances.after_waits {s u t : State} (hw : Waits s u) (ha : Advances u t) : Advances s t := by
  obtain ⟨hout, hleft, hticks⟩ := hw
  cases ha with
  | ended htx => exact .ended htx
  | transferred hout' hleft' => exact .transferred (hout ▸ hout') (hleft'.trans_le hleft)
  | ticked hout' hleft' htick => exact .ticked (hout'.trans hout) (hleft'.trans hleft) (hticks ▸ htick)

theorem exec_engXfer_advances {s : State} (h : Inv s) (hb : s.engine = .busy) : Brings (exec .engXfer s) (Advances s) := by
  rw [exec_engXfer_runs h.config ((engineRuns_iff s).mpr ⟨hb, h.genRun_of_busy hb⟩)]
  refine (transferEntry_advances h).imp ?_
  rintro _ - ⟨v, rfl, hleft⟩
  exact .transferred (by simp) hleft

theorem exec_genTick_advances {s : State} (h : Inv s) (hb : s.engine = .busy) : Brings (exec .genTick s) (Advances s) := by
  rw [exec_genTick_runs h.config (h.genRun_of_busy hb), startPeriod]
  by_cases ht : s.tick = 0
  · rw [if_pos ht, if_pos hb]
    rcases transferEntry_advances h with hstop | ⟨_, hrun, v, rfl, hleft⟩
    · exact .inl (dutyStop_andThen (dutyStop_andThen hstop _) _)
    · rw [hrun]
      exact .inr ⟨_, rfl, .transferred (by simp) hleft⟩
  · rw [if_neg ht]
    exact .inr ⟨_, rfl, .ticked rfl le_rfl (ticksLeft_drivePin h.tick_lt ht)⟩

/-! ### The HANDLER -/

/-- A refill encodes at least one unit, which is one wrap event less to serve. -/
theorem encodeHalf_servesLeft {s : State} (hf : Half) (h : Inv s) (hs : s.tx = .sending) (hp : s.p.toNat < totalUnits s) :
    ∃ t, encodeHalf hf s = .next t ∧ servesLeft t < servesLeft s := by
  obtain ⟨-, hn, harray⟩ := h.counters.1 hs
  obtain ⟨t, ht⟩ : ∃ t, encodeHalf hf s = .next t := encodeSlots_runs harray
  have hprogress := encodeSlots_progress ht (totalUnits_lt h.config hn) hp.le
  have hk := config_k_pos s.cfg h.config
  have htx := encodeHalf_keeps_tx ht
  have htotal : totalUnits t = totalUnits s := by rw [encodeHalf_frame ht]; rfl
  refine ⟨t, ht, ?_⟩
  simp only [servesLeft, htx, hs, htotal, hprogress]
  omega

/-- A clear cycle counted is one wrap event less to serve. -/
theorem countCycle_servesLeft {s : State} (hs : s.tx = .clearing) (hl : s.clrCnt.toNat + 1 < s.cfg.clearLimit)
    (hfit : s.cfg.clearLimit < 2 ^ 16) : servesLeft (countCycle s) < servesLeft s := by
  have hinc : (s.clrCnt + 1).toNat = s.clrCnt.toNat + 1 := by rw [BitVec.toNat_add]; simp; omega
  simp only [servesLeft, countCycle_tx, countCycle_cfg, countCycle_clrCnt, hs, hinc]
  omega

/-- The half-consumed event served leaves the wrap events and the engine as they were. -/
theorem evHalf_waits {s t : State} (he : exec .evHalf s = .next t) (hserves : servesLeft t ≤ servesLeft s) : Waits s t := by
  have hframe := (handlerFrame s t).1 he
  have hwrap : t.wrapPend = s.wrapPend := by rw [hframe]
  have hleft : wrapsLeft t ≤ wrapsLeft s := by rw [wrapsLeft, wrapsLeft, hwrap]; omega
  refine ⟨by rw [hframe], transfersLeft_le_of_wrapsLeft (by rw [hframe]) (by rw [hframe]) hleft, ?_⟩
  rw [hframe]; rfl

/-- The wrap event served makes room for another, and is itself one less to serve. -/
theorem evWrap_waits {s t : State} (he : exec .evWrap s = .next t) (hw : s.wrapPend = true)
    (hserves : servesLeft t < servesLeft s) : Waits s t := by
  have hframe := (handlerFrame s t).2 he
  have hwrap : t.wrapPend = false := by rw [hframe]
  have hleft : wrapsLeft t ≤ wrapsLeft s := by simp only [wrapsLeft, hwrap, hw]; exact hserves
  refine ⟨by rw [hframe], transfersLeft_le_of_wrapsLeft (by rw [hframe]) (by rw [hframe]) hleft, ?_⟩
  rw [hframe]; rfl

theorem exec_evHalf_advances {s : State} (h : Inv s) (hb : s.engine = .busy) (hh : s.halfPend = true) :
    ∃ t, exec .evHalf s = .next t ∧ (Advances s t ∨ Waits s t) := by
  rcases h.sending_or_clearing_of_busy hb with hs | hs
  · rcases Nat.lt_or_ge s.p.toNat (totalUnits s) with hp | hp
    · obtain ⟨t, ht, hserves⟩ := encodeHalf_servesLeft .low h.ackHalf hs hp
      have he := (exec_evHalf_refills h.config hh hs hp).trans ht
      exact ⟨t, he, .inr (evHalf_waits he hserves.le)⟩
    · exact ⟨_, exec_evHalf_ends h.config hh (.inl ⟨hs, hp⟩), .inl (.ended rfl)⟩
  · have he := exec_evHalf_rests h.config hh (.inr hs)
    exact ⟨_, he, .inr (evHalf_waits he le_rfl)⟩

theorem exec_evWrap_advances {s : State} (h : Inv s) (hb : s.engine = .busy) (hw : s.wrapPend = true) :
    ∃ t, exec .evWrap s = .next t ∧ (Advances s t ∨ Waits s t) := by
  rcases h.sending_or_clearing_of_busy hb with hs | hs
  · rcases Nat.lt_or_ge s.p.toNat (totalUnits s) with hp | hp
    · obtain ⟨t, ht, hserves⟩ := encodeHalf_servesLeft .high h.ackWrap hs hp
      have he := (exec_evWrap_refills h.config hw hs hp).trans ht
      exact ⟨t, he, .inr (evWrap_waits he hw hserves)⟩
    · exact ⟨_, exec_evWrap_ends h.config hw (.inl ⟨hs, hp⟩), .inl (.ended rfl)⟩
  · rcases Nat.lt_or_ge (s.clrCnt.toNat + 1) s.cfg.clearLimit with hl | hl
    · obtain ⟨-, -, -, -, -, -, -, hfit, -⟩ := (config_wf_iff s.cfg).mp h.config
      have he := exec_evWrap_counts h.config hw hs hl
      exact ⟨_, he, .inr (evWrap_waits he hw (countCycle_servesLeft (s := ackWrap s) hs hl hfit))⟩
    · exact ⟨_, exec_evWrap_ends_clear h.config hw hs hl, .inl (.ended rfl)⟩

theorem runTurn_of_pass {a : Agent} {s : State} (hf : fetch a s = .pass) : runTurn a s = .next s := by
  simp only [runTurn, hf]

/-- The HANDLER's turn passes, or serves the one event that is pending. -/
theorem runTurn_handler_advances {s : State} (h : Inv s) (hb : s.engine = .busy) :
    ∃ t, runTurn .handler s = .next t ∧ (Advances s t ∨ Waits s t) := by
  obtain ⟨hpass, hhalf, hwrap, -⟩ := eventVectorSelectsHandler s
  cases hw : s.wrapPend with
  | false =>
    cases hh : s.halfPend with
    | false => exact ⟨s, runTurn_of_pass (hpass hw hh), .inr (.refl s)⟩
    | true => rw [runTurn_of_fetch (hhalf hw hh)]; exact exec_evHalf_advances h hb hh
  | true =>
    have hh : s.halfPend = false := by simpa [hw] using h.events.1
    rw [runTurn_of_fetch (hwrap hw hh)]
    exact exec_evWrap_advances h hb hw

/-! ### The HOST -/

theorem fetch_host_end {s : State} (hp : s.hphase = .free) (hs : s.script = []) : fetch .host s = .pass := by
  simp only [fetch, fetchHost, hp, hs]

theorem presentSend_answers (base : LedIndex) (count : Count) (s : State) : ∃ t, presentSend base count s = .next t := by
  rw [presentSend]
  split
  · exact ⟨_, rfl⟩
  · split <;> exact ⟨_, rfl⟩

/-- CLEAR's presentation answers a state, but for a violation of the borrow (R126, R206). -/
theorem presentClear_answers (base : LedIndex) (count : Count) (s : State) :
    presentClear base count s = .fault (.borrowViolation (.clear base count)) ∨
      ∃ t, presentClear base count s = .next t := by
  rw [presentClear]
  split
  · exact .inr ⟨_, rfl⟩
  · split
    · exact .inr ⟨_, rfl⟩
    · split
      · exact .inl rfl
      · exact .inr ⟨_, rfl⟩

/-- With a free port and after INIT the HOST's operations have their guards, so they stop at its duties alone (R120, R206). -/
theorem exec_host_runs_or_stops {i : Instr} {s : State} (hi : IsHostInstr i) (hc : s.cfg.wf = true) (hinit : s.inited = true)
    (hp : s.hphase = .free) : DutyStop (exec i s) ∨ ∃ t, exec i s = .next t := by
  cases i with
  | ready => exact .inr ⟨_, exec_ready_runs hc hinit hp⟩
  | send base count =>
    obtain ⟨t, ht⟩ := presentSend_answers base count s
    exact .inr ⟨t, (exec_send_presents hc hinit hp).trans ht⟩
  | clear base count =>
    rw [exec_clear_presents hc hinit hp]
    rcases presentClear_answers base count s with hv | ⟨t, ht⟩
    · rw [hv]; exact .inl (.borrowViolation _)
    · exact .inr ⟨t, ht⟩
  | init => rw [exec_init_again hc hinit]; exact .inl .alreadyInitialised
  | wait =>
    rw [exec_wait_runs hc hinit hp]
    split <;> exact .inr ⟨_, rfl⟩
  | ledw a r g b =>
    cases hb : inBorrowed s a with
    | true => rw [exec_ledw_borrowed hc hp hb]; exact .inl (.borrowViolation _)
    | false => exact .inr ⟨_, exec_ledw_runs hc hp hb⟩
  | evHalf | evWrap | encodeUnit | encodeHalf | engStart | engStop | engXfer | genTick => simp [IsHostInstr, Instr.format] at hi

/-- While a transmission runs the HOST writes nothing the counts read (R42). -/
theorem exec_host_waits {i : Instr} {s t : State} (hi : IsHostInstr i) (hinit : s.inited = true) (htx : s.tx ≠ .idle)
    (he : exec i s = .next t) : Waits s t := by
  have hne : i ≠ .init := by
    rintro rfl
    obtain ⟨-, hno, -⟩ := execInit_cases he
    exact absurd (hinit.symm.trans hno) nofun
  rw [callerNeverWritesWhileBusy i s t hi hne htx he]
  exact ⟨rfl, le_rfl, rfl⟩

theorem isHostInstr_of_fetch {i : Instr} {s t : State} (hf : fetch .host s = .run i t) : IsHostInstr i := by
  rcases fetch_run_instr hf with ⟨-, hi⟩ | ⟨ha, -⟩ | ⟨ha, -⟩ | ⟨ha, -⟩
  · exact hi
  all_goals cases ha

/-- With a free port the HOST runs the operation it fetches. -/
theorem runTurn_host_of_fetch {i : Instr} {s t : State} (h : Inv s) (hb : s.engine = .busy) (hp : s.hphase = .free)
    (hf : fetch .host s = .run i t) : Brings (runTurn .host s) (Waits s) := by
  have hi := isHostInstr_of_fetch hf
  have hinit := h.inited_of_busy hb
  have htx := h.not_idle_of_busy hb
  rw [runTurn_of_fetch hf]
  obtain ⟨l, rfl⟩ := fetch_run hf
  have hfetch : Waits s { s with script := l } := waits_schedule s l s.turns s.turnCount
  rcases exec_host_runs_or_stops (s := { s with script := l }) hi h.config hinit hp with hstop | ⟨t, he⟩
  · exact .inl hstop
  · exact .inr ⟨t, he, hfetch.trans (exec_host_waits hi hinit htx he)⟩

/-- A word that waits at the port is the SEND or the CLEAR held, and it spins while the engine runs (R121, R123, R127). -/
theorem runTurn_host_held {s : State} (h : Inv s) (hb : s.engine = .busy) (hp : s.hphase ≠ .free) :
    runTurn .host s = .next s := by
  have hnot : ¬(s.tx = .idle ∧ s.engine = .ready) := fun hr => h.not_idle_of_busy hb hr.1
  cases hph : s.hphase with
  | free => exact absurd hph hp
  | waitSend =>
    obtain ⟨hw, -⟩ := h.port.1 hph
    have hd := decodeCmd_send (w := s.hcmd) (by rw [hw]; exact opField_cmdWordOf ..)
    rw [runTurn_of_fetch (fetch_host_held hp hd)]
    exact (waitingHostSpins s _ _ h.config (h.inited_of_busy hb) hnot hb (h.genRun_of_busy hb)).1 hph hw
  | waitClear =>
    obtain ⟨hw, -⟩ := h.port.2 hph
    have hd := decodeCmd_clear (w := s.hcmd) (by rw [hw]; exact opField_cmdWordOf ..)
    rw [runTurn_of_fetch (fetch_host_held hp hd)]
    exact (waitingHostSpins s _ _ h.config (h.inited_of_busy hb) hnot hb (h.genRun_of_busy hb)).2 hph hw

theorem runTurn_host_waits {s : State} (h : Inv s) (hb : s.engine = .busy) : Brings (runTurn .host s) (Waits s) := by
  by_cases hp : s.hphase = .free
  · cases hs : s.script with
    | nil => exact .inr ⟨s, runTurn_of_pass (fetch_host_end hp hs), .refl s⟩
    | cons item rest =>
      cases item with
      | word w =>
        cases hd : decodeCmd w with
        | ok i => exact runTurn_host_of_fetch h hb hp (fetch_host_word hp hs hd)
        | error r =>
          rw [runTurn_of_fetch_refused (fetch_host_word_refused hp hs hd)]
          exact .inl (.reservedOp w)
      | wait => exact runTurn_host_of_fetch h hb hp (fetch_host_wait hp hs)
      | ledw a r g b => exact runTurn_host_of_fetch h hb hp (fetch_host_ledw hp hs)
  · exact .inr ⟨s, runTurn_host_held h hb hp, .refl s⟩

/-! ### One step -/

/-- The pacer's turn is never passed while a transmission runs: it makes the transfer, or comes a tick nearer to it. -/
theorem runTurn_pacer_advances {s : State} (h : Inv s) (hb : s.engine = .busy) :
    Brings (runTurn (pacer s.cfg) s) (Advances s) := by
  have hg := h.genRun_of_busy hb
  cases hl : s.cfg.level with
  | period =>
    have hpacer : pacer s.cfg = .engine := by rw [pacer, hl]
    rw [hpacer, runTurn_of_fetch (fetch_engine_run hl ((engineRuns_iff s).mpr ⟨hb, hg⟩))]
    exact exec_engXfer_advances h hb
  | tick =>
    have hpacer : pacer s.cfg = .generator := by rw [pacer, hl]
    rw [hpacer, runTurn_of_fetch (fetch_generator_run hl hg)]
    exact exec_genTick_advances h hb

/-- At the other level of description the agent that could make the transfer has no step of its own (R185). -/
theorem runTurn_not_pacer_waits {s : State} {a : Agent} (h : Inv s) (hb : s.engine = .busy) (ha : a ≠ pacer s.cfg) :
    Brings (runTurn a s) fun t => Advances s t ∨ Waits s t := by
  cases a with
  | host => exact (runTurn_host_waits h hb).imp fun _ _ => .inr
  | handler => exact .inr (runTurn_handler_advances h hb)
  | engine =>
    cases hl : s.cfg.level with
    | period => exact absurd (by rw [pacer, hl]) ha
    | tick => exact .inr ⟨s, runTurn_of_pass (by simp only [fetch, fetchEngine, hl]), .inr (.refl s)⟩
  | generator =>
    cases hl : s.cfg.level with
    | period => exact .inr ⟨s, runTurn_of_pass (by simp only [fetch, fetchGenerator, hl]), .inr (.refl s)⟩
    | tick => exact absurd (by rw [pacer, hl]) ha

/-- What a turn runs leaves the schedule alone. -/
theorem runTurn_keeps_turnsToPacer {a : Agent} {s t : State} (h : runTurn a s = .next t) :
    turnsToPacer t = turnsToPacer s := by
  rw [runTurn] at h
  split at h
  · rename_i i u hf
    obtain ⟨l, rfl⟩ := fetch_run hf
    obtain ⟨hturns, hcount⟩ := exec_keeps_schedule h
    rw [turnsToPacer, turnsToPacer, exec_keeps_cfg h, hturns, hcount]
  · cases h; rfl
  · cases h
  · cases h

/-- One step of a transmission brings it on, or is one of the turns before the pacer's next one (R165). -/
theorem step_advances {s : State} (h : Inv s) (hb : s.engine = .busy) :
    Brings (step s) fun t => Advances s t ∨ (Waits s t ∧ turnsToPacer t < turnsToPacer s) := by
  have hfair := takeTurn_fair s
  obtain ⟨ts, n, hturn⟩ := takeTurn_state s
  have hinv : Inv (takeTurn s).2 := h.of_unread (by rw [hturn])
  have hbusy : (takeTurn s).2.engine = .busy := by rw [hturn]; exact hb
  have hcfg : pacer (takeTurn s).2.cfg = pacer s.cfg := by rw [hturn]
  have hwaits : Waits s (takeTurn s).2 := by rw [hturn]; exact waits_schedule s s.script ts n
  rw [step, guardConfig_ok h.config]
  by_cases ha : (takeTurn s).1 = pacer (takeTurn s).2.cfg
  · rw [ha]
    exact (runTurn_pacer_advances hinv hbusy).imp fun _ _ hadv => .inl (hadv.after_waits hwaits)
  · have hnearer := hfair.resolve_left (hcfg ▸ ha)
    refine (runTurn_not_pacer_waits hinv hbusy ha).imp fun t ht hor => ?_
    rcases hor with hadv | hw
    · exact .inl (hadv.after_waits hwaits)
    · exact .inr ⟨hwaits.trans hw, runTurn_keeps_turnsToPacer ht ▸ hnearer⟩

end Sys2Proof.Machine
end

section
/-! PROOFS. Every transmission ends (43_block_transfer_engine.md R165): a run comes to the next transfer, and so to the last. -/

namespace Sys2Proof.Machine

/-- A run comes to a state with `P`, or before it to a duty of the caller or the integrator. -/
inductive Eventually (P : State → Prop) : State → Prop where
  | here {s : State} (h : P s) : Eventually P s
  | stop {s : State} (h : DutyStop (step s)) : Eventually P s
  | later {s t : State} (hs : step s = .next t) (h : Eventually P t) : Eventually P s

theorem Eventually.steps {P : State → Prop} {s : State} (h : Eventually P s) : ∃ n, Brings (steps n s) P := by
  induction h with
  | here h => exact ⟨0, .inr ⟨_, rfl, h⟩⟩
  | @stop s h =>
    have hone : Machine.steps 1 s = step s := andThen_next_right _
    exact ⟨1, .inl (hone ▸ h)⟩
  | later hs _ ih =>
    obtain ⟨n, hn⟩ := ih
    exact ⟨n + 1, by rwa [Machine.steps, hs, andThen_next]⟩

theorem Eventually.bind {P Q : State → Prop} {s : State} (h : Eventually P s) (hPQ : ∀ t, P t → Eventually Q t) :
    Eventually Q s := by
  induction h with
  | here h => exact hPQ _ h
  | stop h => exact .stop h
  | later hs _ ih => exact .later hs ih

/-- Since `s` the transmission has ended or made a further transfer. -/
def EndedOrMoved (s t : State) : Prop :=
  Inv t ∧ (t.tx = .idle ∨ (s.out.length < t.out.length ∧ transfersLeft t < transfersLeft s))

/-- A running engine does not stall: each step without a transfer brings the next one nearer, in ticks or in turns. -/
theorem eventually_endedOrMoved {s u : State} (h : Inv u) (hb : u.engine = .busy) (hout : u.out = s.out)
    (hleft : transfersLeft u ≤ transfersLeft s) : Eventually (EndedOrMoved s) u := by
  rcases step_advances h hb with hstop | ⟨t, ht, hstep⟩
  · exact .stop hstop
  have hinv := stepKeepsInvariant u t h ht
  refine .later ht ?_
  by_cases htx : t.tx = .idle
  · exact .here ⟨hinv, .inl htx⟩
  have hbusy := hinv.busy_of_not_idle htx
  rcases hstep with (htx' | ⟨hout', hleft'⟩ | ⟨hout', hleft', htick⟩) | ⟨hw, hturn⟩
  · exact absurd htx' htx
  · exact .here ⟨hinv, .inr ⟨hout ▸ hout', hleft'.trans_le hleft⟩⟩
  · exact eventually_endedOrMoved hinv hbusy (hout'.trans hout) (hleft'.trans hleft)
  · have hticks := hw.ticks
    exact eventually_endedOrMoved hinv hbusy (hw.out.trans hout) (hw.transfers.trans hleft)
termination_by (ticksLeft u, turnsToPacer u)
decreasing_by
  · exact Prod.Lex.left _ _ htick
  · rw [hticks]; exact Prod.Lex.right _ hturn

/-- The transfers left run out, and before they do the transmission ends. -/
theorem eventually_idle {s : State} (h : Inv s) (hb : s.engine = .busy) :
    Eventually (fun t => t.tx = .idle ∧ t.engine = .ready) s := by
  refine (eventually_endedOrMoved h hb rfl le_rfl).bind fun t ⟨hinv, hcases⟩ => ?_
  by_cases htx : t.tx = .idle
  · exact .here ⟨htx, hinv.ready_of_idle htx⟩
  · have hless := (hcases.resolve_left htx).2
    exact eventually_idle hinv (hinv.busy_of_not_idle htx)
termination_by transfersLeft s

/-- Settles O60: the next transfer or the end comes in some number of steps, and the transfers left are finitely many. -/
theorem everyTransmissionEnds : Obligations.EveryTransmissionEnds := by
  intro s h hb
  have hmoves : Eventually (fun t => t.tx = .idle ∨ s.out.length < t.out.length) s :=
    (eventually_endedOrMoved h hb rfl le_rfl).bind fun _ ⟨_, hcases⟩ => .here (hcases.imp_right And.left)
  exact ⟨hmoves.steps, (eventually_idle h hb).steps⟩

end Sys2Proof.Machine
end

section
/-! PROOFS. The Timing Generator (44_timing_generator.md R182 to R185): one tick, the ticks of a whole period, and what writes OUT
and DUTY. -/

namespace Sys2Proof.Machine

/-! ### The start of a period -/

theorem startPeriod_later {s : State} (ht : s.tick ≠ 0) : startPeriod s = .next s := if_neg ht

theorem startPeriod_stopped {s : State} (ht : s.tick = 0) (he : s.engine = .ready) :
    startPeriod s = .next (setActive false s) := by
  rw [startPeriod, if_pos ht, if_neg (by rw [he]; nofun)]

theorem startPeriod_busy {s : State} (ht : s.tick = 0) (hb : s.engine = .busy) :
    startPeriod s = andThen (transferEntry s) fun t => .next (setActive true t) := by
  rw [startPeriod, if_pos ht, if_pos hb]

theorem startPeriod_transfers {s : State} (ht : s.tick = 0) (hb : s.engine = .busy) {v : Val}
    (hv : s.buf[s.rdidx]? = some v) (ho : overruns s = false) :
    startPeriod s = .next (setActive true (moveEntry v s)) := by
  rw [startPeriod_busy ht hb, transferEntry_runs ho hv, andThen_next]

theorem startPeriod_keeps {s u : State} (h : startPeriod s = .next u) :
    u.cfg = s.cfg ∧ u.genRun = s.genRun ∧ u.tick = s.tick := by
  rcases startPeriod_cases h with ⟨-, rfl⟩ | ⟨-, -, rfl⟩ | ⟨-, -, -, v, -, rfl⟩ <;> exact ⟨rfl, rfl, rfl⟩

/-! ### One tick -/

/-- A tick whose first part answers a state drives the pin from there. -/
theorem exec_genTick_drives {s u : State} (hc : s.cfg.wf = true) (hg : s.genRun = true) (hu : startPeriod s = .next u) :
    exec .genTick s = .next (drivePin u) := by
  rw [exec_genTick_runs hc hg, hu, andThen_next]

/-- At the first tick the pin is high exactly when ACTIVE is and the pulse has a width (R184). -/
theorem drivePin_first {s : State} (ht : s.tick = 0) : drivePin s = { s with
    pin := s.active && decide (0 < s.duty.toNat)
    wave := s.wave ++ [s.active && decide (0 < s.duty.toNat)]
    tick := 1 % s.cfg.period } := by
  rw [drivePin, pinLevel, nextTick, ht]

theorem fetch_engine_pass_tick {s : State} (hl : s.cfg.level = .tick) : fetch .engine s = .pass := by
  simp only [fetch, fetchEngine, hl]

/-- Settles O19: the first part of the tick is the identity, a sample of ACTIVE, a transfer, or its Overrun, and the pin follows
the state it answers. -/
theorem genTickEffect : Obligations.GenTickEffect := by
  intro s hc hg
  refine ⟨fun ht => ?later, fun ht he => ?stopped, fun ht hb v hv hlate => ?transfer, fun ht hb hraise hpend => ?late,
    fetch_engine_pass_tick⟩
  case later => exact exec_genTick_drives hc hg (startPeriod_later ht)
  case stopped =>
    rw [exec_genTick_drives hc hg (startPeriod_stopped ht he), drivePin_first (s := setActive false s) ht]
    rfl
  case transfer =>
    have ho : overruns s = false := (overruns_eq_false s).mpr hlate
    rw [exec_genTick_drives hc hg (startPeriod_transfers ht hb hv ho),
      drivePin_first (s := setActive true (moveEntry v s)) ht, setActive_active, Bool.true_and, setActive_duty,
      moveEntry_duty]
    rfl
  case late =>
    have ho : overruns s = true := (overruns_iff s).mpr ⟨hraise, hpend⟩
    rw [exec_genTick_runs hc hg, startPeriod_busy ht hb, (transferEntry_overrun_iff s).mpr ho]
    rfl

/-! ### A whole period -/

theorem ticks_succ_last (m : Nat) (s : State) : ticks (m + 1) s = andThen (ticks m s) (exec .genTick) := by
  induction m generalizing s with
  | zero => exact andThen_next_right _
  | succ m ih =>
    rw [ticks, ticks, andThen_assoc]
    congr 1
    funext t
    exact ih t

/-- The pin level at tick i of a period with the ACTIVE and DUTY of `s` (R184). -/
def levelAt (s : State) (i : Nat) : Bool := s.active && decide (i < s.duty.toNat)

theorem pinLevel_eq_levelAt (s : State) : pinLevel s = levelAt s s.tick := rfl

/-- The state after tick m, m from 0, of the period whose first part answered `u`. -/
def afterTick (m : Nat) (u : State) : State :=
  { u with
    pin := levelAt u m
    wave := u.wave ++ (List.range (m + 1)).map (levelAt u)
    tick := (m + 1) % u.cfg.period }

theorem drivePin_eq_afterTick {u : State} (ht : u.tick = 0) : drivePin u = afterTick 0 u := drivePin_first ht

theorem drivePin_afterTick {m : Nat} {u : State} (hm : m + 1 < u.cfg.period) :
    drivePin (afterTick m u) = afterTick (m + 1) u := by
  have htick : (afterTick m u).tick = m + 1 := Nat.mod_eq_of_lt hm
  have hlevel : pinLevel (afterTick m u) = levelAt u (m + 1) := by rw [pinLevel_eq_levelAt, htick]; rfl
  have hwave : (afterTick m u).wave ++ [levelAt u (m + 1)] = (afterTick (m + 1) u).wave := by
    simp only [afterTick, List.range_succ (n := m + 1), List.map_append, List.map_singleton, List.append_assoc]
  rw [drivePin, hlevel, nextTick, htick, hwave]
  rfl

/-- The ticks of a period drive the pin from the state its first part answers; at the later ones ENGINE plays no part (R184). -/
theorem ticks_eq_afterTick {s u : State} (hc : s.cfg.wf = true) (hg : s.genRun = true) (ht : s.tick = 0)
    (hu : startPeriod s = .next u) {m : Nat} (hm : m < s.cfg.period) : ticks (m + 1) s = .next (afterTick m u) := by
  obtain ⟨hcu, hgu, htu⟩ := startPeriod_keeps hu
  induction m with
  | zero => rw [ticks_succ_last, ticks, andThen_next, exec_genTick_drives hc hg hu, drivePin_eq_afterTick (htu.trans ht)]
  | succ m ih =>
    have hm' : m + 1 < u.cfg.period := hcu ▸ hm
    have htick : (afterTick m u).tick ≠ 0 := by
      rw [show (afterTick m u).tick = m + 1 from Nat.mod_eq_of_lt hm']
      exact Nat.succ_ne_zero m
    rw [ticks_succ_last, ih (by omega), andThen_next,
      exec_genTick_drives (s := afterTick m u) (hcu ▸ hc) (hgu.trans hg) (startPeriod_later htick), drivePin_afterTick hm']

/-- A period whose first part answers `u` leaves `u` but for the pin and its waveform, and TICK is 0 again. -/
theorem ticks_period {s u : State} (hc : s.cfg.wf = true) (hg : s.genRun = true) (ht : s.tick = 0)
    (hu : startPeriod s = .next u) :
    ∃ pin, ticks s.cfg.period s = .next { u with
      pin := pin, wave := u.wave ++ (List.range s.cfg.period).map (levelAt u), tick := 0 } := by
  obtain ⟨m, hm⟩ := Nat.exists_eq_add_one.mpr (config_period_pos hc)
  have hmu : m + 1 = u.cfg.period := by rw [(startPeriod_keeps hu).1, hm]
  refine ⟨levelAt u m, ?_⟩
  rw [hm, ticks_eq_afterTick hc hg ht hu (by omega), afterTick, ← hmu, Nat.mod_self]

/-- A pulse of width `w` in a period of `n` ticks: high first, then low. -/
theorem map_decide_lt_range (w n : Nat) : (List.range n).map (fun i => decide (i < w)) =
    List.replicate (min w n) true ++ List.replicate (n - w) false := by
  induction n with
  | zero => simp
  | succ n ih =>
    rw [List.range_succ, List.map_append, ih, List.map_singleton]
    by_cases hn : n < w
    · rw [show min w n = n by omega, show n - w = 0 by omega, show min w (n + 1) = n + 1 by omega,
        show n + 1 - w = 0 by omega, decide_eq_true hn, List.replicate_succ']
      simp
    · rw [show min w (n + 1) = min w n by omega, show n + 1 - w = n - w + 1 by omega, decide_eq_false hn,
        List.replicate_succ', List.append_assoc]

theorem levels_of_active {u : State} (ha : u.active = true) (n : Nat) : (List.range n).map (levelAt u) =
    List.replicate (min u.duty.toNat n) true ++ List.replicate (n - u.duty.toNat) false := by
  rw [← map_decide_lt_range]
  exact List.map_congr_left fun i _ => by rw [levelAt, ha, Bool.true_and]

theorem levels_of_not_active {u : State} (ha : u.active = false) (n : Nat) :
    (List.range n).map (levelAt u) = List.replicate n false := by
  rw [List.map_congr_left (g := fun _ => false) fun i _ => by rw [levelAt, ha, Bool.false_and], List.map_const',
    List.length_range]

/-- Settles O20: the period drives the pin with the entry of the transfer, or with ACTIVE low. -/
theorem onePeriodOnePulse : Obligations.OnePeriodOnePulse := by
  constructor
  · intro s v hc hg hb ht hv hlate
    have hu := startPeriod_transfers ht hb hv ((overruns_eq_false s).mpr hlate)
    obtain ⟨pin, hticks⟩ := ticks_period hc hg ht hu
    refine ⟨_, hticks, rfl, rfl, rfl, ?_⟩
    rw [levels_of_active rfl, List.append_assoc]
    rfl
  · intro s hc hg he ht
    obtain ⟨pin, hticks⟩ := ticks_period hc hg ht (startPeriod_stopped ht he)
    refine ⟨_, hticks, rfl, rfl, rfl, ?_⟩
    rw [levels_of_not_active rfl]
    rfl

/-! ### What writes OUT and DUTY -/

theorem HostEffect.keeps_out_duty {i : Instr} {s t : State} (he : HostEffect s i t) : t.out = s.out ∧ t.duty = s.duty := by
  cases he with
  | sendAccepted _ _ _ _ ha => rw [acceptSend_frame ha]; exact ⟨rfl, rfl⟩
  | _ => exact ⟨rfl, rfl⟩

theorem exec_keeps_out_duty {i : Instr} {s t : State} (hx : i ≠ .engXfer) (hk : i ≠ .genTick) (h : exec i s = .next t) :
    t.out = s.out ∧ t.duty = s.duty := by
  cases i with
  | ready | send | clear | init => exact (exec_hostEffect (.inl rfl) h).keeps_out_duty
  | wait | ledw => exact (exec_hostEffect (.inr rfl) h).keeps_out_duty
  | evHalf => rw [(handlerFrame s t).1 h]; exact ⟨rfl, rfl⟩
  | evWrap => rw [(handlerFrame s t).2 h]; exact ⟨rfl, rfl⟩
  | encodeUnit hf j =>
    obtain ⟨-, -, h⟩ := execEncodeUnit_cases h
    rcases encodeUnit_cases h with ⟨-, rfl⟩ | ⟨-, rfl⟩ <;> exact ⟨rfl, rfl⟩
  | encodeHalf hf => rw [encodeHalf_frame (execEncodeHalf_cases h).2]; exact ⟨rfl, rfl⟩
  | engStart => obtain ⟨-, rfl⟩ := execEngStart_cases h; exact ⟨rfl, rfl⟩
  | engStop => obtain ⟨-, rfl⟩ := execEngStop_cases h; exact ⟨rfl, rfl⟩
  | engXfer => exact absurd rfl hx
  | genTick => exact absurd rfl hk

/-- A tick makes a transfer exactly at the first tick of a period with the engine running, and else leaves OUT and DUTY alone
(R182, R184). -/
theorem exec_genTick_out_duty {s t : State} (h : exec .genTick s = .next t) :
    (s.tick = 0 ∧ s.engine = .busy ∧ ∃ v, s.buf[s.rdidx]? = some v ∧ t.out = s.out ++ [v] ∧ t.duty = v) ∨
    (¬(s.tick = 0 ∧ s.engine = .busy) ∧ t.out = s.out ∧ t.duty = s.duty) := by
  obtain ⟨-, -, u, hu, rfl⟩ := execGenTick_cases h
  rcases startPeriod_cases hu with ⟨ht, rfl⟩ | ⟨-, he, rfl⟩ | ⟨ht, hb, -, v, hv, rfl⟩
  · exact .inr ⟨fun hfirst => ht hfirst.1, rfl, rfl⟩
  · exact .inr ⟨fun hfirst => absurd (he.symm.trans hfirst.2) nofun, rfl, rfl⟩
  · exact .inl ⟨ht, hb, v, hv, rfl, rfl⟩

/-- Settles O53: ENG_XFER moves an entry, GEN_TICK does so at the first tick of a running engine's period, and the other
operations keep both registers. -/
theorem outGrowsOnlyByTransfers : Obligations.OutGrowsOnlyByTransfers := by
  intro i s t h
  by_cases hx : i = .engXfer
  · subst hx
    obtain ⟨-, -, -, v, hv, rfl⟩ := execEngXfer_cases h
    exact ⟨fun _ => ⟨v, hv, rfl, rfl⟩, fun hnot => absurd (.inl rfl) hnot⟩
  by_cases hk : i = .genTick
  · subst hk
    rcases exec_genTick_out_duty h with ⟨ht, hb, hmoved⟩ | ⟨hlater, hkept⟩
    · exact ⟨fun _ => hmoved, fun hnot => absurd (.inr ⟨rfl, ht, hb⟩) hnot⟩
    · exact ⟨fun htransfer => absurd (htransfer.resolve_left hx).2 hlater, fun _ => hkept⟩
  · exact ⟨fun htransfer => absurd (htransfer.resolve_left hx).1 hk, fun _ => exec_keeps_out_duty hx hk h⟩

end Sys2Proof.Machine
end

section
/-! PROOFS. The faults and refusals (60_exceptions.md R200 to R211): a bad configuration, a bad argument, Busy, a violation of the
borrow, and a wait on a stalled engine; and which operation can raise a coded fault or end STUCK at all. -/

namespace Sys2Proof.Machine

/-! ### A configuration outside R11 (R207) -/

theorem guardConfig_bad {s : State} (hc : s.cfg.wf = false) (o : Result) : guardConfig s o = .refused .badConfig := by
  simp [guardConfig, configOk, hc]

/-- Every operation has the configuration as its first guard. -/
theorem exec_eq_guardConfig (i : Instr) (s : State) : ∃ o, exec i s = guardConfig s o := by
  cases i <;> exact ⟨_, rfl⟩

/-- Settles O26: the guard comes first, in every operation and in a step, and its check is the list of R11. -/
theorem badConfigurationRefused : Obligations.BadConfigurationRefused := by
  refine ⟨fun i s hc => ⟨?_, guardConfig_bad hc _⟩, config_wf_iff⟩
  obtain ⟨o, ho⟩ := exec_eq_guardConfig i s
  rw [ho, guardConfig_bad hc]

/-! ### InvalidArgument and Busy (R202, R204, R211 c) -/

theorem presentSend_bad_argument {base : LedIndex} {count : Count} {s : State} (ha : badArgument s.cfg base count = true) :
    presentSend base count s = .next (raiseCoded .invalidArgument (sendWord base count) s) := if_pos ha

theorem presentClear_bad_argument {base : LedIndex} {count : Count} {s : State} (ha : badArgument s.cfg base count = true) :
    presentClear base count s = .next (raiseCoded .invalidArgument (clearWord base count) s) := if_pos ha

/-- Settles O27: the argument check is the first one of both presentations. -/
theorem invalidArgumentOnlySetsErr : Obligations.InvalidArgumentOnlySetsErr := by
  intro s base count hc hi hp harg
  have ha := (badArgument_iff s.cfg base count).mpr harg
  exact ⟨(exec_send_presents hc hi hp).trans (presentSend_bad_argument ha),
    (exec_clear_presents hc hi hp).trans (presentClear_bad_argument ha)⟩

theorem presentSend_busy {base : LedIndex} {count : Count} {s : State} (ha : badArgument s.cfg base count = false)
    (hn : (s.cfg.nonblocking && !idleReady s) = true) :
    presentSend base count s = .next (raiseCoded .busy (sendWord base count) s) := by
  rw [presentSend, if_neg (by simp [ha]), if_pos hn]

theorem presentClear_busy {base : LedIndex} {count : Count} {s : State} (ha : badArgument s.cfg base count = false)
    (hn : (s.cfg.nonblocking && !idleReady s) = true) :
    presentClear base count s = .next (raiseCoded .busy (clearWord base count) s) := by
  rw [presentClear, if_neg (by simp [ha]), if_pos hn]

/-! ### Which operation raises a coded fault (R201 to R204) -/

/-- What a SEND or CLEAR must find in the state to raise the fault: for InvalidArgument nothing, since it is about the operands;
for EngineFault a stalled engine and a time limit (R203); for Busy the option and a block that is not idle and ready (R204). -/
def CanRaise (s : State) : CodedFault → Prop
  | .invalidArgument => True
  | .engineFault => engineStalled s = true ∧ s.cfg.eventTimeout.isSome = true
  | .busy => s.cfg.nonblocking = true ∧ idleReady s = false

/-- ERR after an operation: as it was, or with the bit of one fault that the operation could raise. -/
inductive ErrEffect (s : State) (i : Instr) (t : State) : Prop where
  | kept (he : t.err = s.err)
  | raised (hi : IsPortCommand i) (f : CodedFault) (hf : CanRaise s f) (he : t.err = s.err ||| (1#3 <<< f.bit))

theorem waitAtPort_errEffect {accept : State → Result} {i : Instr} {s t : State} (hi : IsPortCommand i)
    (haccept : accept s = .next t → t.err = s.err) (h : waitAtPort accept s = .next t) : ErrEffect s i t := by
  rcases waitAtPort_cases h with ⟨-, ha⟩ | ⟨hstalled, hlimit, rfl⟩ | ⟨-, -, rfl⟩
  · exact .kept (haccept ha)
  · exact .raised hi .engineFault ⟨hstalled, hlimit⟩ rfl
  · exact .kept rfl

theorem execSend_errEffect {base : LedIndex} {count : Count} {s t : State} (h : execSend base count s = .next t) :
    ErrEffect s (.send base count) t := by
  obtain ⟨-, -, ⟨-, h⟩ | ⟨-, -, h⟩⟩ := execSend_cases h
  · rcases presentSend_cases h with ⟨-, rfl⟩ | ⟨-, hn, hr, rfl⟩ | ⟨-, rfl⟩
    · exact .raised (.send ..) .invalidArgument trivial rfl
    · exact .raised (.send ..) .busy ⟨hn, hr⟩ rfl
    · exact .kept rfl
  · exact waitAtPort_errEffect (.send ..) (fun ha => by rw [acceptSend_frame ha]) h

theorem execClear_errEffect {base : LedIndex} {count : Count} {s t : State} (h : execClear base count s = .next t) :
    ErrEffect s (.clear base count) t := by
  obtain ⟨-, -, ⟨-, h⟩ | ⟨-, -, h⟩⟩ := execClear_cases h
  · rcases presentClear_cases h with ⟨-, rfl⟩ | ⟨-, hn, hr, rfl⟩ | ⟨-, -, rfl⟩
    · exact .raised (.clear ..) .invalidArgument trivial rfl
    · exact .raised (.clear ..) .busy ⟨hn, hr⟩ rfl
    · exact .kept rfl
  · exact waitAtPort_errEffect (.clear ..) (fun ha => by cases ha; rfl) h

theorem exec_errEffect {i : Instr} {s t : State} (h : exec i s = .next t) : ErrEffect s i t := by
  cases i with
  | send base count => exact execSend_errEffect h
  | clear base count => exact execClear_errEffect h
  | ready => obtain ⟨-, -, -, rfl⟩ := execReady_cases h; exact .kept rfl
  | init => obtain ⟨-, -, -, rfl⟩ := execInit_cases h; exact .kept rfl
  | wait => obtain ⟨-, -, -, ⟨-, rfl⟩ | ⟨-, rfl⟩⟩ := execWait_cases h <;> exact .kept rfl
  | ledw a r g b => obtain ⟨-, -, -, rfl⟩ := execLedw_cases h; exact .kept rfl
  | evHalf | evWrap | encodeUnit | encodeHalf | engStart | engStop | engXfer | genTick =>
    exact .kept (by rw [exec_frame_of_not_host (by simp [Instr.format]) h])

/-- Raising one coded fault leaves the bits of the others alone (R201). -/
theorem err_or_other_bit (e : BitVec 3) {f g : CodedFault} (hne : f ≠ g) :
    (e ||| (1#3 <<< f.bit)).getLsbD g.bit = e.getLsbD g.bit := by
  cases f <;> cases g <;> simp_all [CodedFault.bit]

/-- An operation that cannot raise a coded fault leaves its ERR bit alone. -/
theorem exec_keeps_err_bit {i : Instr} {s t : State} (h : exec i s = .next t) {g : CodedFault}
    (hg : IsPortCommand i → ¬CanRaise s g) : t.err.getLsbD g.bit = s.err.getLsbD g.bit := by
  cases exec_errEffect h with
  | kept he => rw [he]
  | raised hi f hf he =>
    have hne : f ≠ g := fun hfg => hg hi (hfg ▸ hf)
    rw [he, err_or_other_bit _ hne]

/-- Settles O28: the Busy check is the second one of both presentations, and only there is ERR bit 2 set. -/
theorem busyOnlyWhenNonblocking : Obligations.BusyOnlyWhenNonblocking := by
  constructor
  · intro s base count hc hi hp hmax hrange hn hbusy
    have ha := (badArgument_eq_false s.cfg base count).mpr ⟨hmax, hrange⟩
    have hr : idleReady s = false := (idleReady_eq_false s).mpr fun hr => hbusy.elim (absurd hr.1) (absurd hr.2)
    have hcheck : (s.cfg.nonblocking && !idleReady s) = true := by rw [hn, hr]; rfl
    exact ⟨(exec_send_presents hc hi hp).trans (presentSend_busy ha hcheck),
      (exec_clear_presents hc hi hp).trans (presentClear_busy ha hcheck)⟩
  · intro i s t hcase h
    refine exec_keeps_err_bit (g := .busy) h fun hi ⟨hn, _⟩ => ?_
    rcases hcase with hblocking | rfl | rfl
    · exact absurd (hblocking.symm.trans hn) nofun
    · cases hi
    · cases hi

/-! ### BorrowViolation (R206) -/

theorem presentClear_violates_iff {base : LedIndex} {count : Count} {s : State} (ha : badArgument s.cfg base count = false)
    (hn : (s.cfg.nonblocking && !idleReady s) = false) :
    presentClear base count s = .fault (.borrowViolation (.clear base count)) ↔ overlapsBorrowed s base count = true := by
  rw [presentClear, if_neg (by simp [ha]), if_neg (by simp [hn])]
  split
  · exact iff_of_true rfl (by assumption)
  · exact iff_of_false nofun (by assumption)

theorem exec_ledw_violates_iff {a : LedIndex} {r g b : Byte} {s : State} (hc : s.cfg.wf = true) (hp : s.hphase = .free) :
    exec (.ledw a r g b) s = .fault (.borrowViolation (.ledw a r g b)) ↔ inBorrowed s a = true := by
  cases hb : inBorrowed s a with
  | true => exact iff_of_true (exec_ledw_borrowed hc hp hb) rfl
  | false => rw [exec_ledw_runs hc hp hb]; exact iff_of_false nofun nofun

/-- CLEAR's array and the borrowed range overlap when they share an element; the higher of the two bases is one. -/
theorem overlapsBorrowed_iff_shares {s : State} (htx : s.tx = .sending) (base : LedIndex) (count : Count) :
    overlapsBorrowed s base count = true ↔ ∃ e, base.toNat ≤ e ∧ e < base.toNat + count.toNat ∧ s.ledBase.toNat ≤ e ∧
      e < s.ledBase.toNat + s.ledCount.toNat := by
  rw [overlapsBorrowed_iff]
  constructor
  · rintro ⟨-, hcount, hled, hlow, hhigh⟩
    exact ⟨max base.toNat s.ledBase.toNat, by omega⟩
  · rintro ⟨e, he⟩
    exact ⟨htx, by omega⟩

/-- Settles O31: with its argument in range and without NONBLOCKING, CLEAR comes to the test of the borrow. -/
theorem borrowViolationOnOverlap : Obligations.BorrowViolationOnOverlap := by
  intro s hc hp htx
  constructor
  · intro base count hi hn hmax hrange
    rw [exec_clear_presents hc hi hp, presentClear_violates_iff ((badArgument_eq_false ..).mpr ⟨hmax, hrange⟩)
      (busyCheck_passes (.inl hn)), overlapsBorrowed_iff_shares htx]
  · intro a r g b
    rw [exec_ledw_violates_iff hc hp, inBorrowed_iff]
    exact and_iff_right htx

/-! ### The wait on a stalled engine (R203, R208) -/

theorem idleReady_of_busy {s : State} (hb : s.engine = .busy) : idleReady s = false :=
  (idleReady_eq_false s).mpr fun hr => absurd (hb.symm.trans hr.2) nofun

theorem waitAtPort_times_out {accept : State → Result} {s : State} (hst : engineStalled s = true)
    (hlimit : s.cfg.eventTimeout.isSome = true) :
    waitAtPort accept s = .next (freePort (raiseCoded .engineFault s.hcmd s)) := by
  have hr := idleReady_of_busy ((engineStalled_iff s).mp hst).1
  rw [waitAtPort, if_neg (by simp [hr]), if_pos (by simp [hst, hlimit])]

theorem waitAtPort_stuck {accept : State → Result} {s : State} (hs : hostStuck s = true)
    (hlimit : s.cfg.eventTimeout.isSome = false) : waitAtPort accept s = .fault .stuck := by
  have hr : ¬idleReady s = true := fun hr => by simp [hostStuck, hr] at hs
  rw [waitAtPort, if_neg hr, if_neg (by simp [hlimit]), if_pos hs]

/-- With no event pending neither handler has a step that could free the block. -/
theorem handlersFree_of_no_event {s : State} (hc : s.cfg.wf = true) (hh : s.halfPend = false) (hw : s.wrapPend = false) :
    handlersFree s = false := by
  have hhalf : execEvHalf s = .refused (.notEnabled "EV_HALF") := exec_evHalf_refuses hc hh
  have hwrap : execEvWrap s = .refused (.notEnabled "EV_WRAP") := exec_evWrap_refuses hc hw
  rw [handlersFree, hhalf, hwrap]
  rfl

theorem hostStuck_of_stalled {s : State} (hc : s.cfg.wf = true) (hst : engineStalled s = true) (hh : s.halfPend = false)
    (hw : s.wrapPend = false) : hostStuck s = true := by
  obtain ⟨hb, hg⟩ := (engineStalled_iff s).mp hst
  have hruns : engineRuns s = false := (engineRuns_eq_false s).mpr fun h => absurd (hg.symm.trans h.2) nofun
  rw [hostStuck, idleReady_of_busy hb, hruns, handlersFree_of_no_event hc hh hw]
  rfl

/-- Settles O35: a stalled engine is busy, so the wait comes to the time limit, and without one to the test of STUCK. -/
theorem stalledEngineEndsTheWait : Obligations.StalledEngineEndsTheWait := by
  intro s base count hc hi hb hg
  have hst := (engineStalled_iff s).mpr ⟨hb, hg⟩
  constructor
  · intro hlimit
    have hout := fun accept => waitAtPort_times_out (accept := accept) hst (Option.isSome_iff_ne_none.mpr hlimit)
    exact ⟨fun hp hw => (exec_send_waits hc hi hp hw).trans (hout _),
      fun hp hw => (exec_clear_waits hc hi hp hw).trans (hout _)⟩
  · intro hlimit hh hwrap
    have hout := fun accept =>
      waitAtPort_stuck (accept := accept) (hostStuck_of_stalled hc hst hh hwrap) (by rw [hlimit]; rfl)
    exact ⟨fun hp hw => (exec_send_waits hc hi hp hw).trans (hout _),
      fun hp hw => (exec_clear_waits hc hi hp hw).trans (hout _)⟩

/-! ### Which operation ends STUCK (R208) -/

theorem guardConfig_ne_fault {s : State} {o : Result} {r : Fault} (h : o ≠ .fault r) : guardConfig s o ≠ .fault r := by
  rw [guardConfig]
  split
  · exact h
  · exact nofun

theorem andThen_ne_fault {o : Result} {f : State → Result} {r : Fault} (ho : o ≠ .fault r) (hf : ∀ u, f u ≠ .fault r) :
    andThen o f ≠ .fault r := by
  cases o with
  | next u => exact hf u
  | fault q => exact ho
  | refused q => exact nofun

theorem ite_ne_fault {p : Prop} [Decidable p] {a b : Result} {r : Fault} (ha : a ≠ .fault r) (hb : b ≠ .fault r) :
    (if p then a else b) ≠ .fault r := by
  split
  · exact ha
  · exact hb

theorem transferEntry_ne_stuck (s : State) : transferEntry s ≠ .fault .stuck := by
  refine ite_ne_fault nofun ?_
  split <;> exact nofun

theorem startPeriod_ne_stuck (s : State) : startPeriod s ≠ .fault .stuck :=
  ite_ne_fault (ite_ne_fault (andThen_ne_fault (transferEntry_ne_stuck s) fun _ => nofun) nofun) nofun

theorem encodeUnit_ne_stuck (hf : Half) (j : Nat) (s : State) : encodeUnit hf j s ≠ .fault .stuck :=
  ite_ne_fault (ite_ne_fault nofun nofun) (ite_ne_fault nofun nofun)

theorem encodeSlots_ne_stuck (hf : Half) (count j : Nat) (s : State) : encodeSlots hf count j s ≠ .fault .stuck := by
  induction count generalizing j s with
  | zero => exact nofun
  | succ count ih => exact andThen_ne_fault (encodeUnit_ne_stuck hf j s) (ih (j + 1))

theorem encodeHalf_ne_stuck (hf : Half) (s : State) : encodeHalf hf s ≠ .fault .stuck := encodeSlots_ne_stuck hf s.cfg.k 0 s

theorem refillOrDone_ne_stuck (hf : Half) (s : State) : refillOrDone hf s ≠ .fault .stuck :=
  ite_ne_fault (ite_ne_fault (encodeHalf_ne_stuck hf s) nofun) nofun

theorem acceptSend_ne_stuck (base : LedIndex) (count : Count) (s : State) : acceptSend base count s ≠ .fault .stuck :=
  andThen_ne_fault (encodeHalf_ne_stuck _ _) fun _ => andThen_ne_fault (encodeHalf_ne_stuck _ _) fun _ => nofun

theorem presentSend_ne_stuck (base : LedIndex) (count : Count) (s : State) : presentSend base count s ≠ .fault .stuck :=
  ite_ne_fault nofun (ite_ne_fault nofun nofun)

theorem presentClear_ne_stuck (base : LedIndex) (count : Count) (s : State) : presentClear base count s ≠ .fault .stuck :=
  ite_ne_fault nofun (ite_ne_fault nofun (ite_ne_fault nofun nofun))

theorem waitAtPort_ne_stuck {accept : State → Result} {s : State} (haccept : accept s ≠ .fault .stuck)
    (hs : hostStuck s = false) : waitAtPort accept s ≠ .fault .stuck := by
  refine ite_ne_fault haccept (ite_ne_fault nofun ?_)
  rw [if_neg (by simp [hs])]
  exact nofun

theorem execSend_ne_stuck (base : LedIndex) (count : Count) {s : State} (hs : hostStuck s = false) :
    execSend base count s ≠ .fault .stuck := by
  refine guardConfig_ne_fault (ite_ne_fault nofun ?_)
  split
  · exact presentSend_ne_stuck base count s
  · exact ite_ne_fault (waitAtPort_ne_stuck (acceptSend_ne_stuck base count s) hs) nofun
  · exact nofun

theorem execClear_ne_stuck (base : LedIndex) (count : Count) {s : State} (hs : hostStuck s = false) :
    execClear base count s ≠ .fault .stuck := by
  refine guardConfig_ne_fault (ite_ne_fault nofun ?_)
  split
  · exact presentClear_ne_stuck base count s
  · exact ite_ne_fault (waitAtPort_ne_stuck nofun hs) nofun
  · exact nofun

/-- Only the wait at the port asks whether the HOST is STUCK; every other fault has a name of its own. -/
theorem exec_ne_stuck (i : Instr) {s : State} (hs : hostStuck s = false) : exec i s ≠ .fault .stuck := by
  cases i with
  | send base count => exact execSend_ne_stuck base count hs
  | clear base count => exact execClear_ne_stuck base count hs
  | ready | init => exact guardConfig_ne_fault (ite_ne_fault nofun (ite_ne_fault nofun nofun))
  | wait => exact guardConfig_ne_fault (ite_ne_fault nofun (ite_ne_fault (ite_ne_fault nofun nofun) nofun))
  | ledw => exact guardConfig_ne_fault (ite_ne_fault (ite_ne_fault nofun nofun) nofun)
  | evHalf | evWrap =>
    exact guardConfig_ne_fault (ite_ne_fault (andThen_ne_fault (refillOrDone_ne_stuck _ _) fun _ => nofun) nofun)
  | encodeUnit hf j => exact guardConfig_ne_fault (ite_ne_fault (encodeUnit_ne_stuck hf j s) nofun)
  | encodeHalf hf => exact guardConfig_ne_fault (encodeHalf_ne_stuck hf s)
  | engStart | engStop => exact guardConfig_ne_fault nofun
  | engXfer => exact guardConfig_ne_fault (ite_ne_fault (transferEntry_ne_stuck s) nofun)
  | genTick => exact guardConfig_ne_fault (ite_ne_fault (andThen_ne_fault (startPeriod_ne_stuck s) fun _ => nofun) nofun)

theorem hostStuck_of_runs {s : State} (he : engineRuns s = true) : hostStuck s = false := by simp [hostStuck, he]

/-- Settles O36: a running engine is neither stalled nor does it leave the HOST STUCK. -/
theorem runningEngineNeverStuck : Obligations.RunningEngineNeverStuck := by
  intro i s hb hg
  refine ⟨exec_ne_stuck i (hostStuck_of_runs ((engineRuns_iff s).mpr ⟨hb, hg⟩)), fun t h => ?_⟩
  refine exec_keeps_err_bit (g := .engineFault) h fun _ ⟨hstalled, _⟩ => ?_
  have hstopped := ((engineStalled_iff s).mp hstalled).2
  exact absurd (hg.symm.trans hstopped) nofun

end Sys2Proof.Machine
end

section
/-! PROOFS. Power-on reset and INIT (70_reset_and_hazards.md R230, R231): what the block refuses before INIT, and that no agent
but the HOST has a step. -/

namespace Sys2Proof.Machine

/-! ### Before INIT (R231) -/

theorem exec_wait_before_init {s : State} (hc : s.cfg.wf = true) (hi : s.inited = false) :
    exec .wait s = .refused (.notInitialised "WAIT") := by
  show execWait s = _
  rw [execWait, guardConfig_ok hc, if_pos hi]

theorem exec_send_before_init {s : State} (hc : s.cfg.wf = true) (hi : s.inited = false) (base : LedIndex) (count : Count) :
    exec (.send base count) s = .refused (.notInitialised "SEND") := by
  show execSend base count s = _
  rw [execSend, guardConfig_ok hc, if_pos hi]

theorem exec_clear_before_init {s : State} (hc : s.cfg.wf = true) (hi : s.inited = false) (base : LedIndex) (count : Count) :
    exec (.clear base count) s = .refused (.notInitialised "CLEAR") := by
  show execClear base count s = _
  rw [execClear, guardConfig_ok hc, if_pos hi]

/-- Settles O25: INITED is the first guard of the four that are refused, and a free port is all INIT asks for beside it. -/
theorem onlyInitBeforeInit : Obligations.OnlyInitBeforeInit := fun _ hc hi =>
  ⟨exec_ready_before_init hc hi, exec_wait_before_init hc hi,
    fun base count => ⟨exec_send_before_init hc hi base count, exec_clear_before_init hc hi base count⟩,
    fun hp => ⟨_, exec_init_runs hc hi hp, rfl⟩⟩

/-! ### After reset (R230) -/

theorem fetch_handler_pass_of_no_event {s : State} (hh : s.halfPend = false) (hw : s.wrapPend = false) :
    fetch .handler s = .pass := by
  obtain ⟨hpass, -⟩ := eventVectorSelectsHandler s
  exact hpass hw hh

/-- The GENERATOR has no step before INIT sets GEN_RUN, at either level of description. -/
theorem fetch_generator_pass {s : State} (hg : s.genRun = false) : fetch .generator s = .pass := by
  cases hl : s.cfg.level with
  | period => simp only [fetch, fetchGenerator, hl]
  | tick => simp only [fetch, fetchGenerator, hl, hg, Bool.false_eq_true, if_false]

/-- Nothing the turn writes is read by a fetch after reset, so it passes whoever has it. -/
theorem runTurn_resetWith (c : Config) (a : Agent) (later : List Agent) (n : Nat) :
    runTurn a { State.resetWith c with turns := later, turnCount := n } =
      .next { State.resetWith c with turns := later, turnCount := n } := by
  refine runTurn_of_pass ?_
  cases a with
  | host => exact fetch_host_end rfl rfl
  | handler => exact fetch_handler_pass_of_no_event rfl rfl
  | engine => exact fetch_engine_pass (engineRuns_eq_false_of_ready_or_stopped (.inl rfl))
  | generator => exact fetch_generator_pass rfl

/-- Settles O42: no event, a stopped engine and a stopped generator leave no step but the HOST's, and an empty sequence not
even that, so the step is the turn taken off the schedule. -/
theorem onlyHostMovesAfterReset : Obligations.OnlyHostMovesAfterReset := by
  constructor
  · intro s he hh hw hg
    exact ⟨fetch_handler_pass_of_no_event hh hw, fetch_engine_pass (engineRuns_eq_false_of_ready_or_stopped (.inl he)),
      fetch_generator_pass hg⟩
  · intro c hc
    obtain ⟨later, n, hturn⟩ := takeTurn_state (State.resetWith c)
    refine ⟨later, n, ?_⟩
    rw [step, guardConfig_ok (s := State.resetWith c) hc, hturn, runTurn_resetWith]

end Sys2Proof.Machine
end
